-- ==== Sys2Proof/Word.lean ====
section
/-! DEFINITION. The word and byte types and the small records of words the rules speak of (00_scope.md R10, R12, R13).
All values are unsigned; `+` on words is addition modulo 2^32 and `^^^` is bitwise exclusive-or (R13). -/

namespace Sys2Proof

/-- A 32-bit word (WORD_BITS = 32, R10). -/
abbrev Word := BitVec 32

/-- A byte of the byte interface (R65). -/
abbrev Byte := BitVec 8

/-- The four operands, or the four results, of a quarter round (R111). -/
structure Quad where
  a : Word
  b : Word
  c : Word
  d : Word
  deriving DecidableEq, Repr, Inhabited

/-- The four indices a quarter round works on, as the ordered tuple (a, b, c, d) of R114. -/
structure QuadIx where
  a : Fin 16
  b : Fin 16
  c : Fin 16
  d : Fin 16
  deriving DecidableEq, Repr

/-- Sixteen words: a cipher state or a working copy (STATE_WORDS = 16, R10, R33). -/
abbrev Words16 := Vector Word 16

/-- One vector register of the 8-lane engine: one 32-bit word per lane (LANES = 8, R10, R42). -/
abbrev LaneVec := Vector Word 8

end Sys2Proof
end

