-- ==== Sys2Proof/Syntax.lean ====
section
/-! DEFINITION. The commands: one constructor per row of spec/opcode_table.json, with the operands that CMD and IMM carry
(30_encoding.md R82 to R84, R91, R94). The payload DATA is no part of an encoding (R92): it comes with the request. -/

namespace Sys2Proof

/-- The datapath modes of TRANSFORM (R86). -/
inductive Tier where
  | reference
  | reduced
  | vectorized
  deriving DecidableEq, Repr

/-- The commands of R84, and the second names of R94 (log entry 14). -/
inductive Instr where
  /-- CONSTRUCT with KLEN and NLEN, lengths in bytes (R200). -/
  | construct (klen nlen : BitVec 8)
  /-- SETCTR with IMM, the new counter value (R203). -/
  | setctr (value : Word)
  /-- GETCTR (R205). -/
  | getctr
  /-- ROTL of IMM by N (R121). -/
  | rotl (x : Word) (n : BitVec 5)
  /-- QROUND (R123). -/
  | qround
  /-- BLOCKFN; `raw` omits the feed-forward add (R125). -/
  | blockfn (raw : Bool)
  /-- KSBLOCK (R147). -/
  | ksblock
  /-- KSBATCH (R164). -/
  | ksbatch
  /-- TRANSFORM with TIER = 0 (R180, R86). -/
  | transformRef
  /-- TRANSFORM with TIER = 1. -/
  | transformRo
  /-- TRANSFORM with TIER = 2. -/
  | transformVec
  /-- ENCRYPT.<t>, second name of TRANSFORM.<t> (R94). -/
  | encrypt (tier : Tier)
  /-- DECRYPT.<t>, second name of TRANSFORM.<t> (R94). -/
  | decrypt (tier : Tier)
  /-- SEEK, second name of SETCTR (R94). -/
  | seek (value : Word)
  deriving DecidableEq, Repr

/-- The TRANSFORM command of a tier (R86). -/
def Tier.transform : Tier → Instr
  | .reference => .transformRef
  | .reduced => .transformRo
  | .vectorized => .transformVec

/-- The core command a second name stands for (R94); a core command stands for itself. -/
def Instr.canonical : Instr → Instr
  | .construct k n => .construct k n
  | .setctr v => .setctr v
  | .getctr => .getctr
  | .rotl x n => .rotl x n
  | .qround => .qround
  | .blockfn raw => .blockfn raw
  | .ksblock => .ksblock
  | .ksbatch => .ksbatch
  | .transformRef => .transformRef
  | .transformRo => .transformRo
  | .transformVec => .transformVec
  | .encrypt t => t.transform
  | .decrypt t => t.transform
  | .seek v => .setctr v

end Sys2Proof
end

