-- ==== Sys2Proof/WellFormed.lean ====
section
/-! DEFINITION. The operand constraints of 30_encoding.md R87 that the types of Syntax do not express. -/

namespace Sys2Proof

/-- A command an encoding exists for. ROTL needs N in 1..31 (R87(e), R88). KLEN and NLEN have no encoding constraint
(R87); TIER 3..15 cannot be written (R86). -/
def Instr.wellFormed : Instr → Bool
  | .construct _ _ => true
  | .setctr _ => true
  | .getctr => true
  | .rotl _ n => n != 0#5
  | .qround => true
  | .blockfn _ => true
  | .ksblock => true
  | .ksbatch => true
  | .transformRef => true
  | .transformRo => true
  | .transformVec => true
  | .encrypt _ => true
  | .decrypt _ => true
  | .seek _ => true

end Sys2Proof
end

