-- ==== Sys2Proof/Decode.lean ====
section
/-! DEFINITION. Decoding of (CMD, IMM), total and rejecting by name (30_encoding.md R80 to R92), and the encoder, written
from the formats of R81 and the opcode map of R84. -/

namespace Sys2Proof

/-- Why a word pair decodes to no command, one constructor per clause of R87. Each is answered with IllegalCommand. -/
inductive DecodeReject where
  /-- R87(a): an opcode R84 does not list (R85). -/
  | unassignedOpcode
  /-- R87(b): a field marked 0 holds a non-zero bit. -/
  | reservedField
  /-- R87(c): IMM is not zero where the command does not use it. -/
  | immNotZero
  /-- R87(d): TIER > 2. -/
  | reservedTier
  /-- R87(e): ROTL with N = 0. -/
  | rotateByZero
  deriving DecidableEq, Repr

/-! The fields of R81 and R83, bit by bit. -/

/-- OPC = CMD[31:24]. -/
def opcField (cmd : Word) : BitVec 8 := cmd.extractLsb 31 24
/-- KLEN = CMD[15:8] (format C). -/
def klenField (cmd : Word) : BitVec 8 := cmd.extractLsb 15 8
/-- NLEN = CMD[7:0] (format C). -/
def nlenField (cmd : Word) : BitVec 8 := cmd.extractLsb 7 0
/-- N = CMD[4:0] (format R). -/
def nField (cmd : Word) : BitVec 5 := cmd.extractLsb 4 0
/-- RAW = CMD[0] (format F). -/
def rawField (cmd : Word) : BitVec 1 := cmd.extractLsb 0 0
/-- TIER = CMD[23:20] (format T). -/
def tierField (cmd : Word) : BitVec 4 := cmd.extractLsb 23 20
/-- The reserved field of format Z, CMD[23:0]. -/
def reservedZ (cmd : Word) : BitVec 24 := cmd.extractLsb 23 0
/-- The reserved field of format C, CMD[23:16]. -/
def reservedC (cmd : Word) : BitVec 8 := cmd.extractLsb 23 16
/-- The reserved field of format R, CMD[23:5]. -/
def reservedR (cmd : Word) : BitVec 19 := cmd.extractLsb 23 5
/-- The reserved field of format F, CMD[23:1]. -/
def reservedF (cmd : Word) : BitVec 23 := cmd.extractLsb 23 1
/-- The reserved field of format T, CMD[19:0]. -/
def reservedT (cmd : Word) : BitVec 20 := cmd.extractLsb 19 0

/-- Format Z: all of CMD[23:0] is 0, and IMM is 0. -/
def decodeZ (cmd imm : Word) (i : Instr) : Except DecodeReject Instr :=
  if reservedZ cmd ≠ 0#24 then .error .reservedField
  else if imm ≠ 0#32 then .error .immNotZero
  else .ok i

/-- SETCTR: format Z with IMM as its operand (R82). -/
def decodeSetctr (cmd imm : Word) : Except DecodeReject Instr :=
  if reservedZ cmd ≠ 0#24 then .error .reservedField
  else .ok (.setctr imm)

/-- Format C. -/
def decodeC (cmd imm : Word) : Except DecodeReject Instr :=
  if reservedC cmd ≠ 0#8 then .error .reservedField
  else if imm ≠ 0#32 then .error .immNotZero
  else .ok (.construct (klenField cmd) (nlenField cmd))

/-- Format R, with IMM as the word to rotate (R82). -/
def decodeR (cmd imm : Word) : Except DecodeReject Instr :=
  if reservedR cmd ≠ 0#19 then .error .reservedField
  else if nField cmd = 0#5 then .error .rotateByZero
  else .ok (.rotl imm (nField cmd))

/-- Format F. -/
def decodeF (cmd imm : Word) : Except DecodeReject Instr :=
  if reservedF cmd ≠ 0#23 then .error .reservedField
  else if imm ≠ 0#32 then .error .immNotZero
  else .ok (.blockfn (rawField cmd == 1#1))

/-- The tier of a TIER field, 0 to 2 (R86). -/
def tierOfField (t : BitVec 4) : Option Tier :=
  if t = 0#4 then some .reference
  else if t = 1#4 then some .reduced
  else if t = 2#4 then some .vectorized
  else none

/-- Format T. -/
def decodeT (cmd imm : Word) : Except DecodeReject Instr :=
  if reservedT cmd ≠ 0#20 then .error .reservedField
  else if imm ≠ 0#32 then .error .immNotZero
  else
    match tierOfField (tierField cmd) with
    | some t => .ok t.transform
    | none => .error .reservedTier

/-- The decoder of R91: every pair (CMD, IMM) gives one command or a named rejection. -/
def decode (cmd imm : Word) : Except DecodeReject Instr :=
  if opcField cmd = 0x01#8 then decodeC cmd imm
  else if opcField cmd = 0x02#8 then decodeSetctr cmd imm
  else if opcField cmd = 0x03#8 then decodeZ cmd imm .getctr
  else if opcField cmd = 0x10#8 then decodeR cmd imm
  else if opcField cmd = 0x11#8 then decodeZ cmd imm .qround
  else if opcField cmd = 0x12#8 then decodeF cmd imm
  else if opcField cmd = 0x20#8 then decodeZ cmd imm .ksblock
  else if opcField cmd = 0x21#8 then decodeZ cmd imm .ksbatch
  else if opcField cmd = 0x30#8 then decodeT cmd imm
  else .error .unassignedOpcode

/-! The encoder: each field of a format stands at the bits R81 gives it; the fields marked 0 are left clear. -/

/-- Format Z: OPC in 31:24. -/
def formatZ (opc : BitVec 8) : Word := opc.setWidth 32 <<< 24
/-- Format C: OPC in 31:24, KLEN in 15:8, NLEN in 7:0. -/
def formatC (opc klen nlen : BitVec 8) : Word :=
  opc.setWidth 32 <<< 24 ||| klen.setWidth 32 <<< 8 ||| nlen.setWidth 32
/-- Format R: OPC in 31:24, N in 4:0. -/
def formatR (opc : BitVec 8) (n : BitVec 5) : Word := opc.setWidth 32 <<< 24 ||| n.setWidth 32
/-- Format F: OPC in 31:24, RAW in 0. -/
def formatF (opc : BitVec 8) (raw : BitVec 1) : Word := opc.setWidth 32 <<< 24 ||| raw.setWidth 32
/-- Format T: OPC in 31:24, TIER in 23:20. -/
def formatT (opc : BitVec 8) (tier : BitVec 4) : Word := opc.setWidth 32 <<< 24 ||| tier.setWidth 32 <<< 20

/-- The TIER field of a tier (R86). -/
def Tier.field : Tier → BitVec 4
  | .reference => 0#4
  | .reduced => 1#4
  | .vectorized => 2#4

/-- The word pair (CMD, IMM) of a command (R84, R93, R94). -/
def encode : Instr → Word × Word
  | .construct k n => (formatC 0x01#8 k n, 0#32)
  | .setctr v => (formatZ 0x02#8, v)
  | .getctr => (formatZ 0x03#8, 0#32)
  | .rotl x n => (formatR 0x10#8 n, x)
  | .qround => (formatZ 0x11#8, 0#32)
  | .blockfn raw => (formatF 0x12#8 (if raw then 1#1 else 0#1), 0#32)
  | .ksblock => (formatZ 0x20#8, 0#32)
  | .ksbatch => (formatZ 0x21#8, 0#32)
  | .transformRef => (formatT 0x30#8 0#4, 0#32)
  | .transformRo => (formatT 0x30#8 1#4, 0#32)
  | .transformVec => (formatT 0x30#8 2#4, 0#32)
  | .encrypt t => (formatT 0x30#8 t.field, 0#32)
  | .decrypt t => (formatT 0x30#8 t.field, 0#32)
  | .seek v => (formatZ 0x02#8, v)

/-- CMD of an instruction's bits as one number: bits 31 to 0 (log entry 16). -/
def tableCmd (w : Nat) : Word := BitVec.ofNat 32 w

/-- IMM of an instruction's bits as one number: bits 63 to 32 (log entry 16). -/
def tableImm (w : Nat) : Word := BitVec.ofNat 32 (w >>> 32)

/-- The command the decoder reads from an instruction whose bits are `w`. The table gives every row 32 bits, those of
CMD, and bits at or above `nbits` are 0. -/
def decodeTableWord (nbits w : Nat) : Option Instr :=
  let bits := w % 2 ^ nbits
  (decode (tableCmd bits) (tableImm bits)).toOption

end Sys2Proof
end

