-- ==== Sys2Proof/Hidden.lean ====
section
/-! DEFINITION. The hidden state of the engine, which no command reveals (10_state.md R41 to R45). Types only. -/

namespace Sys2Proof.Machine

/-- The phase of a double round (R44). -/
inductive RoundPhase where
  | column
  | diagonal
  deriving DecidableEq, Repr, Inhabited

/-- The hidden registers.
`wk` is the working copy of the scalar engine (R41).
`lw` and `lo` are the working copies and originals of the 8 lanes, each as the vector registers `V[i]`: entry `i` holds
word `i` of all lanes (R42).
`ser` is the serializer's words, 16 of a block or 128 of a batch (R43).
`seq` is the round sequencer: the double round (0 to 9) and the phase of the block computation in progress, `none` when
there is none (R44). -/
structure Hidden where
  wk  : Words16
  lw  : Vector LaneVec 16
  lo  : Vector LaneVec 16
  ser : List Word
  seq : Option (Fin 10 × RoundPhase)
  deriving DecidableEq, Repr, Inhabited

end Sys2Proof.Machine
end

