-- ==== Sys2Proof/Config.lean ====
section
/-! DEFINITION. What is fixed for the engine (00_scope.md R10, 10_state.md R34), the open parameter (R11), the values the
model names for reset where the spec gives none, and the free values. -/

namespace Sys2Proof.Machine

/-- The hard-wired constant words C0 to C3 (R34). They are not state (R46; log entry 25). -/
def Config.c0 : Word := 0x61707865#32
def Config.c1 : Word := 0x3320646e#32
def Config.c2 : Word := 0x79622d32#32
def Config.c3 : Word := 0x6b206574#32

/-- KEY_BYTES, NONCE_BYTES, BLOCK_BYTES, LANES and ROUNDS of R10. -/
def Config.keyBytes : Nat := 32
def Config.nonceBytes : Nat := 12
def Config.blockBytes : Nat := 64
def Config.lanes : Nat := 8
def Config.rounds : Nat := 20

/-- LEN_BITS of R11: a payload holds at most 2^40 - 1 bytes. -/
def Config.lenBits : Nat := 40

/-- The open parameters an implementation fixes (R11): `initCtr` is INIT_CTR, the counter CONSTRUCT loads.
Held in State, so that a statement over every state holds for every value (log entry 4). -/
structure Params where
  initCtr : Word
  deriving DecidableEq, Repr

/-- The spec's default INIT_CTR = 0 (R11, D9). -/
def Params.default : Params := { initCtr := 0#32 }

/-- DESIGN CHOICE (log entry 2): the value KEY, NONCE and CTR have after reset, where the spec gives none. -/
def Config.resetWord : Word := 0#32

/-- DESIGN CHOICE (log entry 3): the hidden registers right after reset, where the spec gives no value. -/
def Hidden.initial : Hidden where
  wk  := Vector.replicate 16 0#32
  lw  := Vector.replicate 16 (Vector.replicate 8 0#32)
  lo  := Vector.replicate 16 (Vector.replicate 8 0#32)
  ser := []
  seq := none

/-- FREE VALUE (log entry 1): the content of the hidden registers between commands, which the spec leaves unspecified
(R45, I6). The argument numbers the occasions. Nothing constrains it. -/
opaque Config.freeHidden : Nat → Hidden

end Sys2Proof.Machine
end

