-- ==== Sys2Proof/Machine/State.lean ====
section
/-! DEFINITION. The state of the engine and its port, the reasons a step can end without a next state, and reset
(10_state.md R30 to R46, 20_memory.md R60, 60_exceptions.md R220, 70_reset_and_hazards.md R250, R255). -/

namespace Sys2Proof.Machine

/-- The status codes of R220. -/
inductive Status where
  | ok
  | invalidKeySize
  | invalidNonceSize
  | counterOverflow
  | illegalCommand
  | malformedPayload
  | notConstructed
  deriving DecidableEq, Repr

/-- A request: CMD, IMM and DATA (R60). -/
structure Request where
  cmd  : Word
  imm  : Word
  data : List Byte
  deriving DecidableEq, Repr

/-- A response: STATUS and RDATA (R60). -/
structure Response where
  status : Status
  rdata  : List Byte
  deriving DecidableEq, Repr

/-- A transaction in progress at the port (R255): the request transferred, whether the response transfer has happened,
and how many response bytes have been transferred. `len` is the 40-bit req_len. -/
structure Transfer where
  cmd        : Word
  imm        : Word
  len        : BitVec 40
  statusSent : Bool
  sent       : Nat
  deriving DecidableEq, Repr

/-- The port: ready for a request, or carrying one transaction ("accepts at most one request per command", R256). -/
inductive Port where
  | idle
  | busy (t : Transfer)
  deriving DecidableEq, Repr

/-- What the host does to the engine, one action a step.
`command` is a whole transaction as the one atomic step of R16.
`requestTransfer`, `payloadTransfer`, `responseTransfer` and `byteTransfer` are the single transfers of R255, one on each
channel.
`reset` is rst_n asserted (R251).
`secondRequester` is a request of a second requester (R238). -/
inductive HostEvent where
  | command (r : Request)
  | requestTransfer (cmd imm : Word) (len : BitVec 40)
  | payloadTransfer (b : Byte)
  | responseTransfer
  | byteTransfer
  | reset
  | secondRequester (r : Request)
  deriving DecidableEq, Repr

/-- The state.
`kv`, `exh`, `key`, `nonce` and `ctr` are the architectural registers of R38 that commands write.
`hidden` is the hidden state of R41 to R44.
`data` and `rsp` are DATA and the response of the request being executed (R15).
`port` is the port of R255.
`inbox` and `outbox` are the host's side: its future actions and the responses it has received (R31, R260; log entries 5
and 7).
`params` holds the open parameter of R11 (log entry 4), and `freeCount` numbers the free values (log entry 1). -/
structure State where
  kv        : Bool
  exh       : Bool
  key       : Vector Word 8
  nonce     : Vector Word 3
  ctr       : Word
  hidden    : Hidden
  data      : List Byte
  rsp       : Option Response
  port      : Port
  inbox     : List HostEvent
  outbox    : List Response
  params    : Params
  freeCount : Nat
  deriving DecidableEq, Repr

/-- There is no reason for the engine to stop with a fault: every error of the spec is a status in the response, after
which the engine goes on (R224, R225; log entry 8). Nothing raises one; safe. -/
inductive Fault where
  deriving DecidableEq, Repr

/-- Why a step has no next state. -/
inductive Refusal where
  /-- An instruction without a meaning yet; raised by refused arms of `exec` only, of which there is none. Safe. -/
  | notModelled (mnemonic : String)
  /-- A request of a second requester, which has no move (R238, I1); raised by `step`. Safe. -/
  | secondRequester
  /-- A transfer the handshake does not allow at this moment (R256, I11); raised by `step`. Safe. -/
  | transferImpossible
  /-- A payload of 2^LEN_BITS bytes or more, which no request can carry (R60, D3); raised by `step`. Safe. -/
  | payloadTooLong
  deriving DecidableEq, Repr

/-- The machine right after reset (R250, R252): KV = 0, EXH = 0, the port ready for a request. KEY, NONCE and CTR hold no
value in the spec; the value here is log entry 2, that of the hidden registers log entry 3. -/
def State.reset : State where
  kv        := false
  exh       := false
  key       := Vector.replicate 8 Config.resetWord
  nonce     := Vector.replicate 3 Config.resetWord
  ctr       := Config.resetWord
  hidden    := Hidden.initial
  data      := []
  rsp       := none
  port      := .idle
  inbox     := []
  outbox    := []
  params    := Params.default
  freeCount := 0

end Sys2Proof.Machine
end

