-- ==== Sys2Proof/Machine/Flags.lean ====
section
/-! DEFINITION. The counter bookkeeping: the next-block index NBI = (EXH, CTR), its overflow check and its update
(10_state.md R36, 43_stream.md R183, R184). EXH and KV are the only flags (R40). -/

namespace Sys2Proof.Machine

/-- EXH or KV as a number. -/
def flagNat (b : Bool) : Nat := if b then 1 else 0

/-- zext_32 of a flag (R205). -/
def flagWord (b : Bool) : Word := if b then 1#32 else 0#32

/-- The 33-bit next-block index, EXH * 2^32 + CTR (R36). -/
def State.nbi (s : State) : Nat := 2 ^ 32 * flagNat s.exh + s.ctr.toNat

/-- NBI <- n: EXH is bit 32 of n and CTR its low 32 bits (R180). -/
def State.setNbi (s : State) (n : Nat) : State :=
  { s with exh := n.testBit 32, ctr := BitVec.ofNat 32 n }

/-- NBI <- NBI + n (R184). -/
def State.advance (s : State) (n : Nat) : State := s.setNbi (s.nbi + n)

/-- The blocks a payload of `len` bytes needs: ceil_div(len, 64) (R12, R180). -/
def blocksFor (len : Nat) : Nat := (len + 63) / 64

end Sys2Proof.Machine
end

