-- ==== Sys2Proof/Machine/Ops.lean ====
section
/-! DEFINITION. The named operations every command shares: raising a status, completing, loading and delivering a request,
and reset. -/

namespace Sys2Proof.Machine

/-- The numeric STATUS of R220. -/
def Status.code : Status → BitVec 8
  | .ok => 0x00#8
  | .invalidKeySize => 0x01#8
  | .invalidNonceSize => 0x02#8
  | .counterOverflow => 0x03#8
  | .illegalCommand => 0x10#8
  | .malformedPayload => 0x11#8
  | .notConstructed => 0x12#8

/-- The response of the command being executed becomes `(st, rdata)`. -/
def State.answer (s : State) (st : Status) (rdata : List Byte) : State :=
  { s with rsp := some { status := st, rdata := rdata } }

/-- `raise S` (R224): the ONE exception mechanism of the engine. The command ends, the response is `(S, [])`, and every
register keeps its value. There is no handler, no saved register and nothing to return from (R225). -/
def raise (st : Status) (s : State) : Host.Outcome State Fault Refusal :=
  .next (s.answer st [])

/-- `return RDATA` (R15): the command ends with status OK; `s` holds the registers it has written. -/
def complete (rdata : List Byte) (s : State) : Host.Outcome State Fault Refusal :=
  .next (s.answer .ok rdata)

/-- A request's payload becomes DATA of the command to be executed. -/
def State.load (s : State) (data : List Byte) : State :=
  { s with data := data, rsp := none }

/-- The hidden registers hold no specified content any more (R45, R250; log entry 1): they take the next free value. -/
def State.forgetHidden (s : State) : State :=
  { s with hidden := Config.freeHidden s.freeCount, freeCount := s.freeCount + 1 }

/-- The response has been delivered (R68, R260): it joins the observation, the port is ready for the next request, and
nothing of the command but its register writes persists (R30). -/
def State.deliver (s : State) : State :=
  { s.forgetHidden with
    outbox := s.outbox ++ s.rsp.toList
    data   := []
    rsp    := none
    port   := .idle }

/-- Reset (R250, R251): the registers take their reset values, a transaction in progress is dropped without a response.
KEY, NONCE and CTR take the named value of log entry 2; the host's side and the parameters stay (log entry 12). -/
def State.engineReset (s : State) : State :=
  { s.forgetHidden with
    kv    := false
    exh   := false
    key   := Vector.replicate 8 Config.resetWord
    nonce := Vector.replicate 3 Config.resetWord
    ctr   := Config.resetWord
    data  := []
    rsp   := none
    port  := .idle }

end Sys2Proof.Machine
end

