-- ==== Sys2Proof/Machine/Checks.lean ====
section
/-! DEFINITION. The checks of 60_exceptions.md R223 as its tables give them: which checks a command makes, in which order,
and what each looks at. They depend on CMD, IMM, the payload length and the registers only, so the port can offer the
status before the payload has arrived (70_reset_and_hazards.md R255). The meanings of the commands are written from their
own rules, and obligations state that the two agree. -/

namespace Sys2Proof.Machine

/-- The six checks of R223, in its order. -/
inductive Check where
  | illegalCommand
  | malformedPayload
  | notConstructed
  | keySize
  | nonceSize
  | counterOverflow
  deriving DecidableEq, Repr

/-- The status a failed check reports (R220, R223). -/
def Check.status : Check → Status
  | .illegalCommand => .illegalCommand
  | .malformedPayload => .malformedPayload
  | .notConstructed => .notConstructed
  | .keySize => .invalidKeySize
  | .nonceSize => .invalidNonceSize
  | .counterOverflow => .counterOverflow

/-- The checks a command makes, in order (R223). -/
def checksOf : Instr → List Check
  | .construct _ _ => [.illegalCommand, .malformedPayload, .keySize, .nonceSize]
  | .setctr _ => [.illegalCommand, .malformedPayload, .notConstructed]
  | .getctr => [.illegalCommand, .malformedPayload, .notConstructed]
  | .rotl _ _ => [.illegalCommand, .malformedPayload]
  | .qround => [.illegalCommand, .malformedPayload]
  | .blockfn _ => [.illegalCommand, .malformedPayload]
  | .ksblock => [.illegalCommand, .malformedPayload, .notConstructed, .counterOverflow]
  | .ksbatch => [.illegalCommand, .malformedPayload, .notConstructed, .counterOverflow]
  | .transformRef => [.illegalCommand, .notConstructed, .counterOverflow]
  | .transformRo => [.illegalCommand, .notConstructed, .counterOverflow]
  | .transformVec => [.illegalCommand, .notConstructed, .counterOverflow]
  | .encrypt _ => [.illegalCommand, .notConstructed, .counterOverflow]
  | .decrypt _ => [.illegalCommand, .notConstructed, .counterOverflow]
  | .seek _ => [.illegalCommand, .malformedPayload, .notConstructed]

/-- The payload length a command requires; none where every length is accepted (R84, R90). -/
def requiredLen : Instr → Option Nat
  | .construct k n => some (k.toNat + n.toNat)
  | .setctr _ => some 0
  | .getctr => some 0
  | .rotl _ _ => some 0
  | .qround => some 16
  | .blockfn _ => some 64
  | .ksblock => some 0
  | .ksbatch => some 0
  | .transformRef => none
  | .transformRo => none
  | .transformVec => none
  | .encrypt _ => none
  | .decrypt _ => none
  | .seek _ => some 0

/-- The keystream blocks a command consumes for a payload of `len` bytes (R183, R184); 0 for a command that produces no
keystream. -/
def blocksNeeded (i : Instr) (len : Nat) : Nat :=
  match i with
  | .construct _ _ => 0
  | .setctr _ => 0
  | .getctr => 0
  | .rotl _ _ => 0
  | .qround => 0
  | .blockfn _ => 0
  | .ksblock => 1
  | .ksbatch => 8
  | .transformRef => blocksFor len
  | .transformRo => blocksFor len
  | .transformVec => blocksFor len
  | .encrypt _ => blocksFor len
  | .decrypt _ => blocksFor len
  | .seek _ => 0

/-- The length of RDATA when a command completes (the `return` of each command's rule). -/
def rdataLen (i : Instr) (len : Nat) : Nat :=
  match i with
  | .construct _ _ => 0
  | .setctr _ => 0
  | .getctr => 8
  | .rotl _ _ => 4
  | .qround => 16
  | .blockfn _ => 64
  | .ksblock => 64
  | .ksbatch => 512
  | .transformRef => len
  | .transformRo => len
  | .transformVec => len
  | .encrypt _ => len
  | .decrypt _ => len
  | .seek _ => 0

/-- The tier of a TRANSFORM command or second name of one (R86, R94). -/
def transformTier : Instr → Option Tier
  | .construct _ _ => none
  | .setctr _ => none
  | .getctr => none
  | .rotl _ _ => none
  | .qround => none
  | .blockfn _ => none
  | .ksblock => none
  | .ksbatch => none
  | .transformRef => some .reference
  | .transformRo => some .reduced
  | .transformVec => some .vectorized
  | .encrypt t => some t
  | .decrypt t => some t
  | .seek _ => none

/-- KLEN and NLEN of a CONSTRUCT (R200). -/
def constructLens : Instr → Option (Nat × Nat)
  | .construct k n => some (k.toNat, n.toNat)
  | .setctr _ => none
  | .getctr => none
  | .rotl _ _ => none
  | .qround => none
  | .blockfn _ => none
  | .ksblock => none
  | .ksbatch => none
  | .transformRef => none
  | .transformRo => none
  | .transformVec => none
  | .encrypt _ => none
  | .decrypt _ => none
  | .seek _ => none

/-- Whether the payload length is not the one the command requires (R89). -/
def lengthWrong (i : Instr) (len : Nat) : Bool :=
  match requiredLen i with
  | some n => len != n
  | none => false

/-- Whether the key length of a CONSTRUCT is wrong (R200). -/
def keyLengthWrong (i : Instr) : Bool :=
  match constructLens i with
  | some (k, _) => k != Config.keyBytes
  | none => false

/-- Whether the nonce length of a CONSTRUCT is wrong (R200). -/
def nonceLengthWrong (i : Instr) : Bool :=
  match constructLens i with
  | some (_, n) => n != Config.nonceBytes
  | none => false

/-- Whether a command would need a block with a counter above 0xFFFFFFFF (R183). -/
def wouldOverflow (i : Instr) (len : Nat) (s : State) : Bool :=
  decide (1 ≤ blocksNeeded i len ∧ s.nbi + blocksNeeded i len > 2 ^ 32)

/-- Whether a check fails for a command with a payload of `len` bytes (R87, R89, R183, R200, R222). -/
def Check.fails (c : Check) (i : Instr) (len : Nat) (s : State) : Bool :=
  match c with
  | .illegalCommand => !i.wellFormed
  | .malformedPayload => lengthWrong i len
  | .notConstructed => !s.kv
  | .keySize => keyLengthWrong i
  | .nonceSize => nonceLengthWrong i
  | .counterOverflow => wouldOverflow i len s

/-- The status of the first check of a list that fails, or OK. -/
def firstOf (i : Instr) (len : Nat) (s : State) : List Check → Status
  | [] => .ok
  | c :: rest => if c.fails i len s then c.status else firstOf i len s rest

/-- The status of a command: the first check that fails, or OK (R223). -/
def firstFailing (i : Instr) (len : Nat) (s : State) : Status := firstOf i len s (checksOf i)

/-- The status of a request, known from CMD, IMM, req_len and the registers (R221, R255). -/
def requestStatus (cmd imm : Word) (len : Nat) (s : State) : Status :=
  match decode cmd imm with
  | .ok i => firstFailing i len s
  | .error _ => .illegalCommand

/-- rsp_len of a request: 0 unless the status is OK (R255). -/
def requestRspLen (cmd imm : Word) (len : Nat) (s : State) : Nat :=
  match decode cmd imm with
  | .ok i => if firstFailing i len s = .ok then rdataLen i len else 0
  | .error _ => 0

end Sys2Proof.Machine
end

