-- ==== Sys2Proof/Machine/Operands.lean ====
section
/-! DEFINITION. Words and bytes of the byte interface (00_scope.md R14, 20_memory.md R62, R63) and the operands that
commands assemble from DATA. -/

namespace Sys2Proof.Machine

/-- Byte `i` of a payload; zero past its end, which no command reads (log entry 22). -/
def byteAt (data : List Byte) (i : Nat) : Byte := data.getD i 0#8

/-- LE32(B, i): four bytes to a word, byte i least significant (R14). -/
def le32 (data : List Byte) (i : Nat) : Word :=
  (byteAt data i).setWidth 32 ||| (byteAt data (i + 1)).setWidth 32 <<< 8
    ||| (byteAt data (i + 2)).setWidth 32 <<< 16 ||| (byteAt data (i + 3)).setWidth 32 <<< 24

/-- ser32(w): a word to four bytes, least significant first (R14). -/
def ser32 (w : Word) : List Byte :=
  [w.extractLsb 7 0, w.extractLsb 15 8, w.extractLsb 23 16, w.extractLsb 31 24]

/-- ser(W): words to bytes, word 0 first (R14, R144). -/
def serWords (ws : List Word) : List Byte := ws.flatMap ser32

/-- The words of a payload from byte `start` on (R62): word j is LE32(DATA, start + 4j). -/
def payloadWords (n start : Nat) (data : List Byte) : Vector Word n :=
  Vector.ofFn fun j => le32 data (start + 4 * j.val)

/-- The quarter round operands of QROUND (R123). -/
def payloadQuad (data : List Byte) : Quad :=
  { a := le32 data 0, b := le32 data 4, c := le32 data 8, d := le32 data 12 }

/-- The serialized result of QROUND (R123). -/
def serQuad (q : Quad) : List Byte := ser32 q.a ++ ser32 q.b ++ ser32 q.c ++ ser32 q.d

/-- Exclusive-or of data with a keystream at least as long, byte by byte (R180). -/
def xorBytes (data ks : List Byte) : List Byte := List.zipWith (· ^^^ ·) data ks

end Sys2Proof.Machine
end

