-- ==== Sys2Proof/Machine/Control.lean ====
section
/-! DEFINITION. CONSTRUCT, SETCTR and GETCTR (44_control.md R200 to R205), and SEEK (30_encoding.md R94). -/

namespace Sys2Proof.Machine

/-- CONSTRUCT (R200). The key words come from DATA bytes 0 to 31 and the nonce words from bytes 32 to 43, each
little-endian (R201). -/
def execConstruct (klen nlen : BitVec 8) (s : State) : Host.Outcome State Fault Refusal :=
  if s.data.length ≠ klen.toNat + nlen.toNat then raise .malformedPayload s
  else if klen.toNat ≠ Config.keyBytes then raise .invalidKeySize s
  else if nlen.toNat ≠ Config.nonceBytes then raise .invalidNonceSize s
  else
    complete []
      { s with
        key   := payloadWords 8 0 s.data
        nonce := payloadWords 3 32 s.data
        ctr   := s.params.initCtr
        exh   := false
        kv    := true }

/-- The counter is overwritten and EXH cleared (R203). -/
def setCounter (value : Word) (s : State) : Host.Outcome State Fault Refusal :=
  if s.data.length ≠ 0 then raise .malformedPayload s
  else if s.kv = false then raise .notConstructed s
  else complete [] { s with ctr := value, exh := false }

/-- SETCTR (R203). -/
def execSetctr (value : Word) (s : State) : Host.Outcome State Fault Refusal := setCounter value s

/-- SEEK: exactly SETCTR (R94). -/
def execSeek (value : Word) (s : State) : Host.Outcome State Fault Refusal := setCounter value s

/-- GETCTR (R205). -/
def execGetctr (s : State) : Host.Outcome State Fault Refusal :=
  if s.data.length ≠ 0 then raise .malformedPayload s
  else if s.kv = false then raise .notConstructed s
  else complete (ser32 s.ctr ++ ser32 (flagWord s.exh)) s

end Sys2Proof.Machine
end

