-- ==== Sys2Proof/Machine/Arx.lean ====
section
/-! DEFINITION. The mixing functions (40_arx.md R110 to R117) and the arrangements in which the three datapaths compute a
round (R118, R119). All are total and read no register (R117, R227). -/

namespace Sys2Proof.Machine

/-- rotl32(x, n) for 0 < n < 32 (R110). -/
def rotl32 (x : Word) (n : Nat) : Word := x <<< n ||| x >>> (32 - n)

/-- quarter_round (R111), one line of its pseudocode per line here. -/
def quarterRound (q : Quad) : Quad :=
  let a := q.a + q.b; let d := rotl32 (q.d ^^^ a) 16
  let c := q.c + d;   let b := rotl32 (q.b ^^^ c) 12
  let a := a + b;     let d := rotl32 (d ^^^ a) 8
  let c := c + d;     let b := rotl32 (b ^^^ c) 7
  { a := a, b := b, c := c, d := d }

/-- The words at a quadruple of indices. -/
def readQuad (w : Words16) (q : QuadIx) : Quad :=
  { a := w[q.a], b := w[q.b], c := w[q.c], d := w[q.d] }

/-- A quadruple written back to the same four indices (R112). -/
def writeQuad (w : Words16) (q : QuadIx) (v : Quad) : Words16 :=
  (((w.set q.a v.a).set q.b v.b).set q.c v.c).set q.d v.d

/-- One quarter round on a 16-word array. -/
def applyQuad (w : Words16) (q : QuadIx) : Words16 := writeQuad w q (quarterRound (readQuad w q))

/-- The column quadruples (R112). -/
def columnQuads : List QuadIx := [⟨0, 4, 8, 12⟩, ⟨1, 5, 9, 13⟩, ⟨2, 6, 10, 14⟩, ⟨3, 7, 11, 15⟩]

/-- The diagonal quadruples (R113). -/
def diagonalQuads : List QuadIx := [⟨0, 5, 10, 15⟩, ⟨1, 6, 11, 12⟩, ⟨2, 7, 8, 13⟩, ⟨3, 4, 9, 14⟩]

/-- The quadruples of a phase. -/
def phaseQuads : RoundPhase → List QuadIx
  | .column => columnQuads
  | .diagonal => diagonalQuads

/-- colround (R112). -/
def colround (w : Words16) : Words16 := columnQuads.foldl applyQuad w

/-- diaground (R113). -/
def diaground (w : Words16) : Words16 := diagonalQuads.foldl applyQuad w

/-- doubleround (R116). -/
def doubleround (w : Words16) : Words16 := diaground (colround w)

/-- core20: ten double rounds (R116). -/
def core20 (w : Words16) : Words16 := Nat.iterate doubleround 10 w

/-- The feed-forward add: mixed word plus original word of the same index (R143). -/
def feedForward (x y : Words16) : Words16 := Vector.zipWith (· + ·) y x

/-- The reference datapath's round: one QRU applied to the quadruples in order (R119, tier 0). -/
def referenceRound (p : RoundPhase) (w : Words16) : Words16 := (phaseQuads p).foldl applyQuad w

/-- The reduced-overhead datapath's round: 4 QRUs apply the quadruples at once, all reading the array as it is before the
round (R119, tier 1). -/
def reducedRound (p : RoundPhase) (w : Words16) : Words16 :=
  (phaseQuads p).foldl (fun acc q => writeQuad acc q (quarterRound (readQuad w q))) w

end Sys2Proof.Machine
end

