-- ==== Sys2Proof/Machine/BlockEngine.lean ====
section
/-! DEFINITION. The cipher state as 16 words, the block function, the scalar datapath with its working copy, sequencer and
serializer, and KSBLOCK (10_state.md R33, R41 to R44, 41_block_engine.md R140 to R147). -/

namespace Sys2Proof.Machine

/-- S(t): constants, key, counter word t, nonce (R33). -/
def cipherState (key : Vector Word 8) (nonce : Vector Word 3) (t : Word) : Words16 :=
  #v[Config.c0, Config.c1, Config.c2, Config.c3,
     key[0], key[1], key[2], key[3], key[4], key[5], key[6], key[7],
     t, nonce[0], nonce[1], nonce[2]]

/-- S(t) of the present key and nonce. -/
def State.cipher (s : State) (t : Word) : Words16 := cipherState s.key s.nonce t

/-- The block function on a 16-word input: core20, feed-forward add, serialization (R141, R142). -/
def blockOf (x : Words16) : List Byte := serWords (feedForward x (core20 x)).toList

/-- block(t), the keystream block for counter t (R142). -/
def State.block (s : State) (t : Word) : List Byte := blockOf (s.cipher t)

/-- block(t) || block(t+1) || ... , n blocks (R180). -/
def State.blocks (s : State) (t : Word) (n : Nat) : List Byte :=
  (List.range n).flatMap fun i => s.block (t + BitVec.ofNat 32 i)

/-! The scalar datapath on the hidden registers. -/

/-- The round after a round: column, then diagonal, in double rounds 0 to 9; none after double round 9, diagonal phase
(R44, R120). -/
def nextRound : Fin 10 × RoundPhase → Option (Fin 10 × RoundPhase)
  | (r, .column) => some (r, .diagonal)
  | (r, .diagonal) => if h : r.val + 1 < 10 then some (⟨r.val + 1, h⟩, .column) else none

/-- The sequencer at the start of a block or batch (R44). -/
def firstRound : Fin 10 × RoundPhase := (0, .column)

/-- A block computation begins: WK is loaded, the sequencer starts (R41, R44). -/
def Hidden.loadScalar (h : Hidden) (x : Words16) : Hidden := { h with wk := x, seq := some firstRound }

/-- One round of the scalar datapath in place on WK; `round` is the arrangement of its tier (R119, R120). -/
def Hidden.stepScalar (round : RoundPhase → Words16 → Words16) (h : Hidden) : Hidden :=
  match h.seq with
  | none => h
  | some (r, p) => { h with wk := round p h.wk, seq := nextRound (r, p) }

/-- A block computation: load, 20 rounds, feed-forward add of the original unless `raw`, and the result words in the
serializer (R141). The original `x` is a value of its own, never aliased with WK (R41, R258). -/
def Hidden.runScalar (round : RoundPhase → Words16 → Words16) (raw : Bool) (x : Words16) (h : Hidden) : Hidden :=
  let mixed := Nat.iterate (Hidden.stepScalar round) Config.rounds (h.loadScalar x)
  { mixed with ser := if raw then mixed.wk.toList else (feedForward x mixed.wk).toList }

/-- The bytes the serializer emits (R144, R162). -/
def Hidden.emit (h : Hidden) : List Byte := serWords h.ser

/-- n blocks one by one from counter t on the scalar datapath (R182): the keystream and the hidden registers after it. -/
def scalarKeystream (round : RoundPhase → Words16 → Words16) (s : State) : Nat → Word → Hidden → List Byte × Hidden
  | 0, _, h => ([], h)
  | n + 1, t, h =>
    let h1 := h.runScalar round false (s.cipher t)
    let rest := scalarKeystream round s n (t + 1#32) h1
    (h1.emit ++ rest.1, rest.2)

/-- KSBLOCK (R147), on the reference datapath (log entry 13). -/
def execKsblock (s : State) : Host.Outcome State Fault Refusal :=
  if s.data.length ≠ 0 then raise .malformedPayload s
  else if s.kv = false then raise .notConstructed s
  else if s.exh = true then raise .counterOverflow s
  else
    let h := s.hidden.runScalar referenceRound false (s.cipher s.ctr)
    complete h.emit { s.advance 1 with hidden := h }

end Sys2Proof.Machine
end

