-- ==== Sys2Proof/Machine/Diagnostics.lean ====
section
/-! DEFINITION. The diagnostic commands ROTL, QROUND and BLOCKFN (40_arx.md R121 to R125). They read and write no
architectural register and work while KV = 0. -/

namespace Sys2Proof.Machine

/-- ROTL (R121). N = 0 is illegal and gets no value (R87(e), R88; log entry 15). -/
def execRotl (x : Word) (n : BitVec 5) (s : State) : Host.Outcome State Fault Refusal :=
  if n = 0#5 then raise .illegalCommand s
  else if s.data.length ≠ 0 then raise .malformedPayload s
  else complete (ser32 (rotl32 x n.toNat)) s

/-- QROUND (R123). -/
def execQround (s : State) : Host.Outcome State Fault Refusal :=
  if s.data.length ≠ 16 then raise .malformedPayload s
  else complete (serQuad (quarterRound (payloadQuad s.data))) s

/-- BLOCKFN (R125), on the reference datapath (log entry 13). -/
def execBlockfn (raw : Bool) (s : State) : Host.Outcome State Fault Refusal :=
  if s.data.length ≠ Config.blockBytes then raise .malformedPayload s
  else
    let h := s.hidden.runScalar referenceRound raw (payloadWords 16 0 s.data)
    complete h.emit { s with hidden := h }

end Sys2Proof.Machine
end

