-- ==== Sys2Proof/Machine/LaneEngine.lean ====
section
/-! DEFINITION. The 8-lane engine: lane replication, lane-parallel operations, batches, and KSBATCH
(10_state.md R42, 42_lane_engine.md R160 to R166). -/

namespace Sys2Proof.Machine

/-- A vector register as 256 bits, lane l in bits [32l+31:32l] (R42). -/
def laneBits (v : LaneVec) : BitVec 256 :=
  (List.finRange 8).foldl (fun (bits : BitVec 256) (l : Fin 8) => bits ||| v[l].setWidth 256 <<< (32 * l.val)) 0#256

/-- Lane l of 16 vector registers: the 16 words LW[l][0..15] or LO[l][0..15] (R42). -/
def laneView (v : Vector LaneVec 16) (l : Fin 8) : Words16 := Vector.ofFn fun i => v[i][l]

/-- vadd (R161). -/
def vadd (u v : LaneVec) : LaneVec := Vector.zipWith (· + ·) u v
/-- vxor (R161). -/
def vxor (u v : LaneVec) : LaneVec := Vector.zipWith (· ^^^ ·) u v
/-- vrotl: a rotation of each lane, not of the 256-bit vector (R161). -/
def vrotl (u : LaneVec) (n : Nat) : LaneVec := u.map fun x => rotl32 x n

/-- A vector quarter round on four vector registers, given and returned in the order a, b, c, d (R111, R161). -/
def vquarterRound (a b c d : LaneVec) : LaneVec × LaneVec × LaneVec × LaneVec :=
  let a := vadd a b; let d := vrotl (vxor d a) 16
  let c := vadd c d; let b := vrotl (vxor b c) 12
  let a := vadd a b; let d := vrotl (vxor d a) 8
  let c := vadd c d; let b := vrotl (vxor b c) 7
  (a, b, c, d)

/-- A vector quarter round of the values `v` written to the quadruple `q` of `acc`. -/
def applyLaneQuad (v acc : Vector LaneVec 16) (q : QuadIx) : Vector LaneVec 16 :=
  let r := vquarterRound v[q.a] v[q.b] v[q.c] v[q.d]
  (((acc.set q.a r.1).set q.b r.2.1).set q.c r.2.2.1).set q.d r.2.2.2

/-- The 8-lane datapath's round: 4 vector QRUs at once on all lanes (R119, tier 2). -/
def laneRound (p : RoundPhase) (v : Vector LaneVec 16) : Vector LaneVec 16 :=
  (phaseQuads p).foldl (applyLaneQuad v) v

/-- The originals LO for the base counter t: lane l holds S((t + l) mod 2^32) (R160). -/
def laneOriginals (s : State) (t : Word) : Vector LaneVec 16 :=
  Vector.ofFn fun i => Vector.ofFn fun l : Fin 8 => (s.cipher (t + BitVec.ofNat 32 l.val))[i]

/-- A batch begins: LO and LW are loaded, the sequencer starts (R44, R160). -/
def Hidden.loadLanes (h : Hidden) (lo : Vector LaneVec 16) : Hidden :=
  { h with lo := lo, lw := lo, seq := some firstRound }

/-- One round of the lane engine in place on LW (R120, R161). -/
def Hidden.stepLanes (round : RoundPhase → Vector LaneVec 16 → Vector LaneVec 16) (h : Hidden) : Hidden :=
  match h.seq with
  | none => h
  | some (r, p) => { h with lw := round p h.lw, seq := nextRound (r, p) }

/-- The words of 8 lanes in lane order, each lane's 16 words in order (R162). -/
def laneWords (z : Vector LaneVec 16) : List Word :=
  (List.finRange 8).flatMap fun l => (List.finRange 16).map fun i => z[i][l]

/-- A batch: load, 20 rounds, each lane's feed-forward add, and the 8 x 16 result words in the serializer (R161, R162). -/
def Hidden.runLanes (lo : Vector LaneVec 16) (h : Hidden) : Hidden :=
  let mixed := Nat.iterate (Hidden.stepLanes laneRound) Config.rounds (h.loadLanes lo)
  { mixed with ser := laneWords (Vector.zipWith vadd mixed.lw mixed.lo) }

/-- m batches with base counters t, t + 8, ... (R182). -/
def laneKeystream (s : State) : Nat → Word → Hidden → List Byte × Hidden
  | 0, _, h => ([], h)
  | m + 1, t, h =>
    let h1 := h.runLanes (laneOriginals s t)
    let rest := laneKeystream s m (t + 8#32) h1
    (h1.emit ++ rest.1, rest.2)

/-- KSBATCH (R164). -/
def execKsbatch (s : State) : Host.Outcome State Fault Refusal :=
  if s.data.length ≠ 0 then raise .malformedPayload s
  else if s.kv = false then raise .notConstructed s
  else if s.exh = true ∨ s.ctr > 0xFFFFFFF8#32 then raise .counterOverflow s
  else
    let h := s.hidden.runLanes (laneOriginals s s.ctr)
    complete h.emit { s.advance 8 with hidden := h }

end Sys2Proof.Machine
end

