-- ==== Sys2Proof/Machine/Stream.lean ====
section
/-! DEFINITION. TRANSFORM at its three tiers, and its second names (43_stream.md R180 to R186, 30_encoding.md R94). -/

namespace Sys2Proof.Machine

/-- The keystream of n blocks from counter t on the datapath of a tier: 64 * n bytes, and the hidden registers after it.
At tier 2 a last partial batch is computed whole and only its needed first bytes are used (R166, R182). -/
def tierKeystream (tier : Tier) (s : State) (t : Word) (n : Nat) : List Byte × Hidden :=
  match tier with
  | .reference => scalarKeystream referenceRound s n t s.hidden
  | .reduced => scalarKeystream reducedRound s n t s.hidden
  | .vectorized =>
    let r := laneKeystream s ((n + 7) / 8) t s.hidden
    (r.1.take (64 * n), r.2)

/-- The keystream of one TRANSFORM of `data`, and the hidden registers after it (R181). -/
def transformKeystream (tier : Tier) (s : State) (data : List Byte) : List Byte × Hidden :=
  tierKeystream tier s (BitVec.ofNat 32 s.nbi) (blocksFor data.length)

/-- The response bytes of a TRANSFORM of `data` (R180, R181). -/
def transformBytes (tier : Tier) (s : State) (data : List Byte) : List Byte :=
  xorBytes data (transformKeystream tier s data).1

/-- TRANSFORM (R180). -/
def transform (tier : Tier) (s : State) : Host.Outcome State Fault Refusal :=
  if s.kv = false then raise .notConstructed s
  else if blocksFor s.data.length = 0 then complete [] s
  else if s.nbi + blocksFor s.data.length > 2 ^ 32 then raise .counterOverflow s
  else
    complete (transformBytes tier s s.data)
      { s.advance (blocksFor s.data.length) with hidden := (transformKeystream tier s s.data).2 }

/-- TRANSFORM.ref (R180, TIER = 0). -/
def execTransformRef (s : State) : Host.Outcome State Fault Refusal := transform .reference s

/-- TRANSFORM.ro (R180, TIER = 1). -/
def execTransformRo (s : State) : Host.Outcome State Fault Refusal := transform .reduced s

/-- TRANSFORM.vec (R180, TIER = 2). -/
def execTransformVec (s : State) : Host.Outcome State Fault Refusal := transform .vectorized s

/-- ENCRYPT.<t>: exactly TRANSFORM.<t> (R94). -/
def execEncrypt (tier : Tier) (s : State) : Host.Outcome State Fault Refusal := transform tier s

/-- DECRYPT.<t>: exactly TRANSFORM.<t> (R94). -/
def execDecrypt (tier : Tier) (s : State) : Host.Outcome State Fault Refusal := transform tier s

end Sys2Proof.Machine
end

