-- ==== Sys2Proof/Machine/Dispatch.lean ====
section
/-! DEFINITION. The meaning of each command, one arm per constructor. -/

namespace Sys2Proof.Machine

def exec (i : Instr) (s : State) : Host.Outcome State Fault Refusal :=
  match i with
  | .construct klen nlen => Sys2Proof.Machine.execConstruct klen nlen s
  | .setctr value => Sys2Proof.Machine.execSetctr value s
  | .getctr => Sys2Proof.Machine.execGetctr s
  | .rotl x n => Sys2Proof.Machine.execRotl x n s
  | .qround => Sys2Proof.Machine.execQround s
  | .blockfn raw => Sys2Proof.Machine.execBlockfn raw s
  | .ksblock => Sys2Proof.Machine.execKsblock s
  | .ksbatch => Sys2Proof.Machine.execKsbatch s
  | .transformRef => Sys2Proof.Machine.execTransformRef s
  | .transformRo => Sys2Proof.Machine.execTransformRo s
  | .transformVec => Sys2Proof.Machine.execTransformVec s
  | .encrypt tier => Sys2Proof.Machine.execEncrypt tier s
  | .decrypt tier => Sys2Proof.Machine.execDecrypt tier s
  | .seek value => Sys2Proof.Machine.execSeek value s

end Sys2Proof.Machine
end

