-- ==== Sys2Proof/Machine/Port.lean ====
section
/-! DEFINITION. Executing a request, and the port that carries one: its signals as functions of the state and what each
transfer does (20_memory.md R60, 70_reset_and_hazards.md R255, R256). -/

namespace Sys2Proof.Machine

/-- A request whose payload is in DATA is executed: decoded (R91) and given its command's effect, or answered with
IllegalCommand (R221). -/
def execute (cmd imm : Word) (s : State) : Host.Outcome State Fault Refusal :=
  match decode cmd imm with
  | .ok i => exec i s
  | .error _ => raise .illegalCommand s

/-- A whole transaction as one atomic step (R16, R65): the request is executed and its response delivered. -/
def transact (r : Request) (s : State) : Host.Outcome State Fault Refusal :=
  match s.port with
  | .busy _ => .refused .transferImpossible
  | .idle =>
    if r.data.length < 2 ^ Config.lenBits then
      match execute r.cmd r.imm (s.load r.data) with
      | .next t => .next t.deliver
      | .fault f => .fault f
      | .refused f => .refused f
    else .refused .payloadTooLong

/-! The engine's outputs at the port (R255). -/

/-- req_ready: low while a command is in progress (R256). -/
def State.reqReady (s : State) : Bool :=
  match s.port with
  | .idle => true
  | .busy _ => false

/-- din_ready: payload bytes are accepted until req_len of them have come. -/
def State.dinReady (s : State) : Bool :=
  match s.port with
  | .idle => false
  | .busy t => decide (s.data.length < t.len.toNat)

/-- rsp_valid: from the request transfer until the response transfer (log entry 20). -/
def State.rspValid (s : State) : Bool :=
  match s.port with
  | .idle => false
  | .busy t => !t.statusSent

/-- rsp_status: the status of the response, known before the payload has arrived. -/
def State.rspStatus (s : State) (t : Transfer) : Status :=
  match s.rsp with
  | some r => r.status
  | none => requestStatus t.cmd t.imm t.len.toNat s

/-- rsp_len. -/
def State.rspLen (s : State) (t : Transfer) : Nat :=
  match s.rsp with
  | some r => r.rdata.length
  | none => requestRspLen t.cmd t.imm t.len.toNat s

/-- The response bytes known so far: all of them once the command has been executed, and before that those of TRANSFORM
for the payload bytes accepted so far (log entry 10). -/
def State.rdataSoFar (s : State) (t : Transfer) : List Byte :=
  match s.rsp with
  | some r => r.rdata
  | none =>
    match decode t.cmd t.imm with
    | .error _ => []
    | .ok i =>
      match transformTier i with
      | none => []
      | some tier => if firstFailing i t.len.toNat s = .ok then transformBytes tier s s.data else []

/-- dout_valid: after the response transfer, while a response byte that is known has not been transferred. -/
def State.doutValid (s : State) : Bool :=
  match s.port with
  | .idle => false
  | .busy t => t.statusSent && decide (t.sent < s.rspLen t) && decide (t.sent < (s.rdataSoFar t).length)

/-- dout_data. -/
def State.doutData (s : State) (t : Transfer) : Byte := byteAt (s.rdataSoFar t) t.sent

/-! The transfers (R255). -/

/-- The command is executed when its whole payload has been accepted (log entry 9). -/
def State.runWhenFed (t : Transfer) (s : State) : Host.Outcome State Fault Refusal :=
  if s.data.length = t.len.toNat then execute t.cmd t.imm s else .next s

/-- The transaction is over when the command has been executed, the response transferred and all response bytes
transferred. -/
def State.settle (t : Transfer) (s : State) : State :=
  match s.rsp with
  | some r => if t.statusSent = true ∧ t.sent = r.rdata.length then s.deliver else s
  | none => s

/-- A request transfer, while the port is ready: the transaction begins. A command without a payload is executed at
once. -/
def requestTransfer (cmd imm : Word) (len : BitVec 40) (s : State) : Host.Outcome State Fault Refusal :=
  match s.port with
  | .busy _ => .refused .transferImpossible
  | .idle =>
    let t : Transfer := { cmd := cmd, imm := imm, len := len, statusSent := false, sent := 0 }
    State.runWhenFed t { s.load [] with port := .busy t }

/-- A payload transfer, while din_ready is high: one more byte of DATA. With the last one the command is executed. -/
def payloadTransfer (b : Byte) (s : State) : Host.Outcome State Fault Refusal :=
  match s.port with
  | .idle => .refused .transferImpossible
  | .busy t =>
    if s.dinReady then
      match State.runWhenFed t { s with data := s.data ++ [b] } with
      | .next u => .next (u.settle t)
      | .fault f => .fault f
      | .refused f => .refused f
    else .refused .transferImpossible

/-- The response transfer, while rsp_valid is high: the host has STATUS and rsp_len. -/
def responseTransfer (s : State) : Host.Outcome State Fault Refusal :=
  match s.port with
  | .idle => .refused .transferImpossible
  | .busy t =>
    if s.rspValid then
      let t := { t with statusSent := true }
      .next ({ s with port := .busy t }.settle t)
    else .refused .transferImpossible

/-- A response byte transfer, while dout_valid is high: the host has one more byte of RDATA. -/
def byteTransfer (s : State) : Host.Outcome State Fault Refusal :=
  match s.port with
  | .idle => .refused .transferImpossible
  | .busy t =>
    if s.doutValid then
      let t := { t with sent := t.sent + 1 }
      .next ({ s with port := .busy t }.settle t)
    else .refused .transferImpossible

/-- One action of the host. A transfer that the signals do not allow has no move (R256, I11). -/
def handle (e : HostEvent) (s : State) : Host.Outcome State Fault Refusal :=
  match e with
  | .command r => transact r s
  | .requestTransfer cmd imm len => requestTransfer cmd imm len s
  | .payloadTransfer b => payloadTransfer b s
  | .responseTransfer => responseTransfer s
  | .byteTransfer => byteTransfer s
  | .reset => .next s.engineReset
  | .secondRequester _ => .refused .secondRequester

/-- The payload of zero bytes a decoded word pair requires (log entry 16). -/
def zeroPayload (cmd imm : Word) : List Byte :=
  match decode cmd imm with
  | .ok i => List.replicate ((requiredLen i).getD 0) 0#8
  | .error _ => []

end Sys2Proof.Machine
end

