-- ==== Sys2Proof/Machine/Step.lean ====
section
/-! DEFINITION. One step of the machine: the host's next action (10_state.md R31, 20_memory.md R68). -/

namespace Sys2Proof.Machine

/-- The host's next action takes place; with none the engine is idle and keeps its state (R235; log entry 6). -/
def step (s : State) : Host.Outcome State Fault Refusal :=
  match s.inbox with
  | [] => .next s
  | e :: rest => handle e { s with inbox := rest }

/-- The state in which the very next step executes the instruction whose bits are `w` (log entries 5 and 16). -/
def State.withFetchWord (s : State) (nbits w : Nat) : State :=
  let bits := w % 2 ^ nbits
  let r : Request :=
    { cmd := tableCmd bits, imm := tableImm bits, data := zeroPayload (tableCmd bits) (tableImm bits) }
  { s with port := .idle, inbox := .command r :: s.inbox }

end Sys2Proof.Machine
end

