-- ==== Sys2Proof/Safety.lean ====
section
/-! DEFINITION. What holds of the engine between two actions of the host (10_state.md R36, R46, 70_reset_and_hazards.md
R255), and the relations, requests and transfers that statements speak of. -/

namespace Sys2Proof.Machine

/-- The invariant of the engine and its port. -/
structure Inv (s : State) : Prop where
  /-- EXH = 1 implies CTR = 0 (R36). -/
  exhausted_counter : s.exh = true → s.ctr = 0#32
  /-- EXH = 1 only in a constructed state (R36, R37, R46). -/
  exhausted_constructed : s.exh = true → s.kv = true
  /-- Between commands no payload and no response is held (R30). -/
  idle_clean : s.port = .idle → s.data = [] ∧ s.rsp = none
  /-- Exactly req_len payload bytes are accepted (R255). -/
  payload_bound : ∀ t, s.port = .busy t → s.data.length ≤ t.len.toNat
  /-- The command has been executed exactly when its payload is complete (log entry 9). -/
  executed_iff_fed : ∀ t, s.port = .busy t → (s.rsp ≠ none ↔ s.data.length = t.len.toNat)
  /-- At most rsp_len response bytes are transferred (R255). -/
  sent_bound : ∀ t, s.port = .busy t → t.sent ≤ s.rspLen t
  /-- Response bytes follow the response transfer (log entry 20). -/
  bytes_after_response : ∀ t, s.port = .busy t → t.statusSent = false → t.sent = 0
  /-- A response that is not OK has no bytes (R224, R255). -/
  error_without_bytes : ∀ r, s.rsp = some r → r.status ≠ .ok → r.rdata = []
  /-- A transaction whose transfers are all done is no longer in progress (R255). -/
  unfinished : ∀ t r, s.port = .busy t → s.rsp = some r → ¬(t.statusSent = true ∧ t.sent = r.rdata.length)

/-- The registers of R38 that a command may write, and the parameter they depend on. -/
structure Registers where
  kv    : Bool
  exh   : Bool
  key   : Vector Word 8
  nonce : Vector Word 3
  ctr   : Word
  deriving DecidableEq, Repr

/-- The architectural registers of a state. -/
def State.registers (s : State) : Registers :=
  { kv := s.kv, exh := s.exh, key := s.key, nonce := s.nonce, ctr := s.ctr }

/-- Two states that differ at most in what the spec says no command may depend on between commands: the hidden registers,
and the counter that numbers their free values (R45). -/
def SameButHidden (s t : State) : Prop :=
  { s with hidden := t.hidden, freeCount := t.freeCount } = t

/-- Two states without a constructed cipher state that differ at most in KEY, NONCE and CTR, which hold no value then
(R37, R46). -/
def SameButValues (s t : State) : Prop :=
  s.kv = false ∧ { s with key := t.key, nonce := t.nonce, ctr := t.ctr } = t

/-- A word pair that is answered with IllegalCommand whatever the state and the payload (R221). -/
def IsIllegal (cmd imm : Word) : Prop :=
  ∀ s : State, execute cmd imm s = .next (s.answer .illegalCommand [])

/-- A command's words are `(cmd, imm)` and no others (R91). -/
def HasOnlyWords (i : Instr) (cmd imm : Word) : Prop :=
  ∀ c m : Word, decode c m = .ok i ↔ c = cmd ∧ m = imm

/-- Whether a command produces keystream (R183). -/
def isKeystream : Instr → Bool
  | .construct _ _ => false
  | .setctr _ => false
  | .getctr => false
  | .rotl _ _ => false
  | .qround => false
  | .blockfn _ => false
  | .ksblock => true
  | .ksbatch => true
  | .transformRef => true
  | .transformRo => true
  | .transformVec => true
  | .encrypt _ => true
  | .decrypt _ => true
  | .seek _ => false

/-- `n` steps, stopping at the first that has no next state. -/
def runSteps : Nat → State → Host.Outcome State Fault Refusal
  | 0, s => .next s
  | n + 1, s =>
    match step s with
    | .next t => runSteps n t
    | .fault f => .fault f
    | .refused r => .refused r

/-! What the engine offers while a host takes a response over the port (R255). -/

/-- What one transfer hands to the host: STATUS and rsp_len, or a response byte. -/
inductive Offer where
  | header (st : Status) (len : Nat)
  | byte (b : Byte)
  deriving DecidableEq, Repr

/-- What the host's next action takes from the port's outputs, if anything. -/
def State.offer (s : State) : List Offer :=
  match s.port, s.inbox with
  | .idle, _ => []
  | .busy _, [] => []
  | .busy t, .responseTransfer :: _ => [.header (s.rspStatus t) (s.rspLen t)]
  | .busy t, .byteTransfer :: _ => [.byte (s.doutData t)]
  | .busy _, .command _ :: _ => []
  | .busy _, .requestTransfer _ _ _ :: _ => []
  | .busy _, .payloadTransfer _ :: _ => []
  | .busy _, .reset :: _ => []
  | .busy _, .secondRequester _ :: _ => []

/-- What is handed over in the first `n` steps, as far as they have next states. -/
def offersIn : Nat → State → List Offer
  | 0, _ => []
  | n + 1, s =>
    match step s with
    | .next t => s.offer ++ offersIn n t
    | .fault _ => []
    | .refused _ => []

/-- The offers that carry a response: STATUS and rsp_len once, then its bytes in order (R255). -/
def offersOf (a : Response) : List Offer := .header a.status a.rdata.length :: a.rdata.map Offer.byte

/-- Whether an action is a transfer inside a transaction: a payload byte, the response, or a response byte. -/
def HostEvent.isInside : HostEvent → Bool
  | .command _ => false
  | .requestTransfer _ _ _ => false
  | .payloadTransfer _ => true
  | .responseTransfer => true
  | .byteTransfer => true
  | .reset => false
  | .secondRequester _ => false

/-- The payload byte an action carries, if it carries one. -/
def HostEvent.payload : HostEvent → List Byte
  | .command _ => []
  | .requestTransfer _ _ _ => []
  | .payloadTransfer b => [b]
  | .responseTransfer => []
  | .byteTransfer => []
  | .reset => []
  | .secondRequester _ => []

/-- Whether the outputs of the port allow the host's action now: req_ready for a request, din_ready for a payload byte,
rsp_valid and dout_valid for the response and its bytes; reset always. -/
def State.allows (s : State) : HostEvent → Bool
  | .command r => s.reqReady && decide (r.data.length < 2 ^ Config.lenBits)
  | .requestTransfer _ _ _ => s.reqReady
  | .payloadTransfer _ => s.dinReady
  | .responseTransfer => s.rspValid
  | .byteTransfer => s.doutValid
  | .reset => true
  | .secondRequester _ => false

/-- The request KSBLOCK (R84). -/
def ksblockRequest : Request := { cmd := 0x20000000#32, imm := 0#32, data := [] }

/-- The request KSBATCH (R84). -/
def ksbatchRequest : Request := { cmd := 0x21000000#32, imm := 0#32, data := [] }

/-- The transfers that carry a request over the port in the order of R255: the request, its payload bytes, the response,
and `n` response bytes. -/
def transfersOf (r : Request) (n : Nat) : List HostEvent :=
  .requestTransfer r.cmd r.imm (BitVec.ofNat 40 r.data.length) ::
    (r.data.map HostEvent.payloadTransfer ++ HostEvent.responseTransfer :: List.replicate n HostEvent.byteTransfer)

end Sys2Proof.Machine
end

