-- ==== Sys2Proof/Certificates/Slice0/Obligations.lean ====
section
/-! DEFINITION. The statements for the provers, from the numbered rules of spec/. A statement about `exec` is about one
command executed with its payload in `data`; a statement about `step` is about one action of the host. -/

open Sys2Proof Sys2Proof.Machine

/-! ### Reset, idling, and what a step does -/

/-- R250, R252: KV and EXH are 0 after reset, the constants hold their values, and the port is ready. -/
def Obligations.ResetClearsFlagsAndIsReady : Prop :=
  State.reset.kv = false ∧ State.reset.exh = false ∧ State.reset.reqReady = true ∧ State.reset.rsp = none ∧
  ∀ t : Word,
    (State.reset.cipher t)[0] = 0x61707865#32 ∧ (State.reset.cipher t)[1] = 0x3320646e#32 ∧
    (State.reset.cipher t)[2] = 0x79622d32#32 ∧ (State.reset.cipher t)[3] = 0x6b206574#32

/-- The invariant holds at reset (log entries 2 and 3 name the values it does not speak of). -/
def Obligations.ResetHasInvariant : Prop := Inv State.reset

/-- R235: between commands the engine keeps its state. -/
def Obligations.IdleEngineKeepsItsState : Prop :=
  ∀ s : State, s.inbox = [] → step s = .next s

/-- R16, R68, R91: with the port ready, a request whose words decode to a command is one step: the command's meaning, with
the payload in DATA, and its one response appended to the responses delivered before. -/
def Obligations.StepExecutesTheDecodedCommand : Prop :=
  ∀ (s : State) (r : Request) (rest : List HostEvent) (i : Instr),
    s.port = .idle → s.inbox = .command r :: rest → r.data.length < 2 ^ 40 → decode r.cmd r.imm = .ok i →
    ∃ (t : State) (a : Response),
      exec i { s with inbox := rest, data := r.data, rsp := none } = .next t ∧ t.rsp = some a ∧
      step s = .next t.deliver ∧
      t.deliver.outbox = s.outbox ++ [a] ∧ t.deliver.registers = t.registers ∧
      t.deliver.inbox = rest ∧ t.deliver.port = .idle ∧ t.deliver.data = [] ∧ t.deliver.rsp = none ∧
      t.deliver.params = s.params

/-- R221, R224: a word pair that decodes to no command is answered with IllegalCommand and no bytes, and no register
changes. -/
def Obligations.UndecodableWordsAreAnsweredIllegal : Prop :=
  ∀ (s : State) (r : Request) (rest : List HostEvent) (e : DecodeReject),
    s.port = .idle → s.inbox = .command r :: rest → r.data.length < 2 ^ 40 → decode r.cmd r.imm = .error e →
    ∃ t : State, step s = .next t ∧ t.outbox = s.outbox ++ [{ status := .illegalCommand, rdata := [] }] ∧
      t.registers = s.registers ∧ t.inbox = rest ∧ t.port = .idle ∧ t.params = s.params

/-- R251: reset at any moment, also inside a transaction, gives the reset state of KV, EXH and the port, no response, and
leaves the responses delivered before and the host's further actions. The values of KEY, NONCE and CTR after it are the
model's (log entry 2) and are not stated. -/
def Obligations.ResetAbortsTheTransaction : Prop :=
  ∀ (s : State) (rest : List HostEvent), s.inbox = .reset :: rest →
    ∃ t : State, step s = .next t ∧ t.kv = false ∧ t.exh = false ∧ t.port = .idle ∧ t.data = [] ∧ t.rsp = none ∧
      t.outbox = s.outbox ∧ t.inbox = rest ∧ t.params = s.params

/-- R238, I1: a second requester has no move. -/
def Obligations.SecondRequesterHasNoMove : Prop :=
  ∀ (s : State) (r : Request) (rest : List HostEvent), s.inbox = .secondRequester r :: rest →
    step s = .refused .secondRequester

/-- A transfer whose signal is low has no move (R256, I11): a request while a command is in progress, a payload byte
beyond req_len, a response byte beyond rsp_len or a second response transfer. That such a host is refused, and that the
signals are functions of the state, are log entries 11 and 24 (DEDUCED); that dout_valid is low before the response
transfer is log entry 20 (DEDUCED), and before the byte is known log entry 10 (DESIGN CHOICE). -/
def Obligations.BrokenHandshakeHasNoMove : Prop :=
  ∀ (s : State) (e : HostEvent) (rest : List HostEvent), s.inbox = e :: rest →
    ((∃ r, e = .command r) ∧ s.reqReady = false ∨ (∃ c m n, e = .requestTransfer c m n) ∧ s.reqReady = false ∨
      (∃ b, e = .payloadTransfer b) ∧ s.dinReady = false ∨ e = .responseTransfer ∧ s.rspValid = false ∨
      e = .byteTransfer ∧ s.doutValid = false) →
    step s = .refused .transferImpossible

/-- The other direction: an action whose signal is high has a next state, in every state; and, in a state with the
invariant, when the signals are high during a transaction (R255, R256). din_ready is high until req_len bytes have come.
rsp_valid is high until the response transfer, whether or not the payload has come. dout_valid is high for every
untransferred response byte once the command has been executed, and for TRANSFORM as soon as the payload byte of the same
index has come (the model's choice: log entries 10, 20 and 24). Some transfer is always possible. -/
def Obligations.AllowedTransfersHappen : Prop :=
  (∀ (s : State) (e : HostEvent) (rest : List HostEvent), s.inbox = e :: rest → s.allows e = true →
    ∃ t : State, step s = .next t) ∧
  (∀ (s : State) (t : Transfer), Inv s → s.port = .busy t →
    s.reqReady = false ∧
    (s.dinReady = true ↔ s.data.length < t.len.toNat) ∧
    (s.rspValid = true ↔ t.statusSent = false) ∧
    (s.doutValid = true → t.statusSent = true ∧ t.sent < s.rspLen t) ∧
    (s.rsp ≠ none → t.statusSent = true → s.doutValid = true) ∧
    (∀ (i : Instr) (tier : Tier), decode t.cmd t.imm = .ok i → transformTier i = some tier → s.rspStatus t = .ok →
      t.statusSent = true → t.sent < s.data.length → s.doutValid = true) ∧
    (s.dinReady = true ∨ s.rspValid = true ∨ s.doutValid = true))

/-- R60, R11: a payload of 2^40 bytes or more cannot be carried by a request. -/
def Obligations.OverlongPayloadHasNoMove : Prop :=
  ∀ (s : State) (r : Request) (rest : List HostEvent), s.port = .idle → s.inbox = .command r :: rest →
    2 ^ 40 ≤ r.data.length → step s = .refused .payloadTooLong

/-- A step delivers at most one response, after those delivered before (R68), takes exactly the first action of the host,
and never changes the parameter. That the host's actions are taken from inbox is log entry 5 (and 6 where it is empty), that
outbox is the record of the responses log entry 7, and that reset leaves inbox, outbox and the parameter log entry 12. -/
def Obligations.StepDeliversAtMostOneResponse : Prop :=
  ∀ s t : State, step s = .next t →
    (t.outbox = s.outbox ∨ ∃ r : Response, t.outbox = s.outbox ++ [r]) ∧ t.inbox = s.inbox.tail ∧ t.params = s.params

/-! ### The commands, one by one -/

/-- R200, R201: CONSTRUCT, its words, its checks in order, and what it loads. -/
def Obligations.ConstructLoadsKeyNonceAndCounter : Prop :=
  ∀ (k n : BitVec 8) (s : State),
    HasOnlyWords (.construct k n) (0x01000000#32 ||| k.setWidth 32 <<< 8 ||| n.setWidth 32) 0#32 ∧
    (∀ cmd imm : Word, cmd.extractLsb 31 24 = 0x01#8 → cmd.extractLsb 23 16 ≠ 0#8 ∨ imm ≠ 0#32 → IsIllegal cmd imm) ∧
    (s.data.length ≠ k.toNat + n.toNat →
      exec (.construct k n) s = .next (s.answer .malformedPayload [])) ∧
    (s.data.length = k.toNat + n.toNat → k.toNat ≠ 32 →
      exec (.construct k n) s = .next (s.answer .invalidKeySize [])) ∧
    (s.data.length = k.toNat + n.toNat → k.toNat = 32 → n.toNat ≠ 12 →
      exec (.construct k n) s = .next (s.answer .invalidNonceSize [])) ∧
    (s.data.length = k.toNat + n.toNat → k.toNat = 32 → n.toNat = 12 →
      ∃ (key : Vector Word 8) (nonce : Vector Word 3),
        (∀ j : Fin 8, ser32 key[j] = [byteAt s.data (4 * j), byteAt s.data (4 * j + 1), byteAt s.data (4 * j + 2),
          byteAt s.data (4 * j + 3)]) ∧
        (∀ j : Fin 3, ser32 nonce[j] = [byteAt s.data (32 + 4 * j), byteAt s.data (32 + 4 * j + 1),
          byteAt s.data (32 + 4 * j + 2), byteAt s.data (32 + 4 * j + 3)]) ∧
        exec (.construct k n) s = .next
          ({ s with key := key, nonce := nonce, ctr := s.params.initCtr, exh := false, kv := true }.answer .ok []))

/-- R203, R94: SETCTR and its second name SEEK. -/
def Obligations.SetctrOverwritesTheCounter : Prop :=
  ∀ (v : Word) (i : Instr) (s : State), i = .setctr v ∨ i = .seek v →
    HasOnlyWords (.setctr v) 0x02000000#32 v ∧
    (∀ cmd imm : Word, cmd.extractLsb 31 24 = 0x02#8 → cmd.extractLsb 23 0 ≠ 0#24 → IsIllegal cmd imm) ∧
    (s.data ≠ [] → exec i s = .next (s.answer .malformedPayload [])) ∧
    (s.data = [] → s.kv = false → exec i s = .next (s.answer .notConstructed [])) ∧
    (s.data = [] → s.kv = true → exec i s = .next ({ s with ctr := v, exh := false }.answer .ok []))

/-- R205: GETCTR answers CTR, least significant byte first, and EXH in a word of its own, and changes nothing. -/
def Obligations.GetctrReadsCounterAndFlag : Prop :=
  ∀ s : State,
    HasOnlyWords .getctr 0x03000000#32 0#32 ∧
    (∀ cmd imm : Word, cmd.extractLsb 31 24 = 0x03#8 → cmd.extractLsb 23 0 ≠ 0#24 ∨ imm ≠ 0#32 → IsIllegal cmd imm) ∧
    (s.data ≠ [] → exec .getctr s = .next (s.answer .malformedPayload [])) ∧
    (s.data = [] → s.kv = false → exec .getctr s = .next (s.answer .notConstructed [])) ∧
    (s.data = [] → s.kv = true →
      exec .getctr s = .next (s.answer .ok
        [s.ctr.extractLsb 7 0, s.ctr.extractLsb 15 8, s.ctr.extractLsb 23 16, s.ctr.extractLsb 31 24,
          (if s.exh then 1#8 else 0#8), 0#8, 0#8, 0#8]))

/-- R110, R121: ROTL answers the word whose bit i is bit (i - N) mod 32 of x, whatever KV is, and changes nothing. -/
def Obligations.RotlMovesBitsCircularly : Prop :=
  ∀ (x : Word) (n : BitVec 5) (s : State), n ≠ 0#5 →
    HasOnlyWords (.rotl x n) (0x10000000#32 ||| n.setWidth 32) x ∧
    (∀ cmd imm : Word, cmd.extractLsb 31 24 = 0x10#8 → cmd.extractLsb 23 5 ≠ 0#19 ∨ cmd.extractLsb 4 0 = 0#5 →
      IsIllegal cmd imm) ∧
    (s.data ≠ [] → exec (.rotl x n) s = .next (s.answer .malformedPayload [])) ∧
    (s.data = [] → ∃ y : Word, (∀ i : Nat, i < 32 → y.getLsbD i = x.getLsbD ((i + 32 - n.toNat) % 32)) ∧
      exec (.rotl x n) s = .next (s.answer .ok (ser32 y)))

/-- R111, R123: QROUND of any four words, whatever KV is, by the twelve lines of the quarter round; it changes nothing. -/
def Obligations.QroundMixesFourWords : Prop :=
  ∀ (a b c d : Word) (s : State),
    HasOnlyWords .qround 0x11000000#32 0#32 ∧
    (∀ cmd imm : Word, cmd.extractLsb 31 24 = 0x11#8 → cmd.extractLsb 23 0 ≠ 0#24 ∨ imm ≠ 0#32 → IsIllegal cmd imm) ∧
    (s.data.length ≠ 16 → exec .qround s = .next (s.answer .malformedPayload [])) ∧
    (s.data = ser32 a ++ ser32 b ++ ser32 c ++ ser32 d →
      let a1 := a + b;   let d1 := (d ^^^ a1).rotateLeft 16
      let c1 := c + d1;  let b1 := (b ^^^ c1).rotateLeft 12
      let a2 := a1 + b1; let d2 := (d1 ^^^ a2).rotateLeft 8
      let c2 := c1 + d2; let b2 := (b1 ^^^ c2).rotateLeft 7
      exec .qround s = .next (s.answer .ok (ser32 a2 ++ ser32 b2 ++ ser32 c2 ++ ser32 d2)))

/-- R125: BLOCKFN of any sixteen words, whatever KV is: core20, with the feed-forward add unless RAW. No register but the
hidden ones changes. -/
def Obligations.BlockfnComputesTheCore : Prop :=
  ∀ (raw : Bool) (x : Words16) (s : State),
    HasOnlyWords (.blockfn raw) (if raw then 0x12000001#32 else 0x12000000#32) 0#32 ∧
    (∀ cmd imm : Word, cmd.extractLsb 31 24 = 0x12#8 → cmd.extractLsb 23 1 ≠ 0#23 ∨ imm ≠ 0#32 → IsIllegal cmd imm) ∧
    (s.data.length ≠ 64 → exec (.blockfn raw) s = .next (s.answer .malformedPayload [])) ∧
    (s.data = serWords x.toList →
      ∃ h : Hidden, exec (.blockfn raw) s = .next ({ s with hidden := h }.answer .ok
        (serWords (Vector.ofFn fun i : Fin 16 => if raw then (core20 x)[i] else (core20 x)[i] + x[i]).toList)))

/-- R142, R147: KSBLOCK answers block(CTR) and advances NBI by one; EXH becomes 1 exactly when CTR was 0xFFFFFFFF. -/
def Obligations.KsblockProducesTheNextBlock : Prop :=
  ∀ s : State,
    HasOnlyWords .ksblock 0x20000000#32 0#32 ∧
    (∀ cmd imm : Word, cmd.extractLsb 31 24 = 0x20#8 → cmd.extractLsb 23 0 ≠ 0#24 ∨ imm ≠ 0#32 → IsIllegal cmd imm) ∧
    (s.data ≠ [] → exec .ksblock s = .next (s.answer .malformedPayload [])) ∧
    (s.data = [] → s.kv = false → exec .ksblock s = .next (s.answer .notConstructed [])) ∧
    (s.data = [] → s.kv = true → s.exh = true → exec .ksblock s = .next (s.answer .counterOverflow [])) ∧
    (s.data = [] → s.kv = true → s.exh = false →
      ∃ h : Hidden, exec .ksblock s = .next
        ({ s with ctr := s.ctr + 1#32, exh := decide (s.ctr = 0xFFFFFFFF#32), hidden := h }.answer .ok (s.block s.ctr)))

/-- R162, R164: KSBATCH answers the blocks of the 8 lanes in counter order and advances NBI by eight; EXH becomes 1 exactly
when CTR was 0xFFFFFFF8. -/
def Obligations.KsbatchProducesEightBlocks : Prop :=
  ∀ s : State,
    HasOnlyWords .ksbatch 0x21000000#32 0#32 ∧
    (∀ cmd imm : Word, cmd.extractLsb 31 24 = 0x21#8 → cmd.extractLsb 23 0 ≠ 0#24 ∨ imm ≠ 0#32 → IsIllegal cmd imm) ∧
    (s.data ≠ [] → exec .ksbatch s = .next (s.answer .malformedPayload [])) ∧
    (s.data = [] → s.kv = false → exec .ksbatch s = .next (s.answer .notConstructed [])) ∧
    (s.data = [] → s.kv = true → s.exh = true ∨ 0xFFFFFFF8 < s.ctr.toNat →
      exec .ksbatch s = .next (s.answer .counterOverflow [])) ∧
    (s.data = [] → s.kv = true → s.exh = false → s.ctr.toNat ≤ 0xFFFFFFF8 →
      ∃ h : Hidden, exec .ksbatch s = .next
        ({ s with ctr := s.ctr + 8#32, exh := decide (s.ctr = 0xFFFFFFF8#32), hidden := h }.answer .ok
          (s.block s.ctr ++ s.block (s.ctr + 1#32) ++ s.block (s.ctr + 2#32) ++ s.block (s.ctr + 3#32) ++
            s.block (s.ctr + 4#32) ++ s.block (s.ctr + 5#32) ++ s.block (s.ctr + 6#32) ++ s.block (s.ctr + 7#32))))

/-- R180, R181: TRANSFORM at every tier, its second names ENCRYPT and DECRYPT among them, and its words. Byte k of the answer is byte k of DATA
exclusive-or byte k mod 64 of block(NBI + k div 64); NBI advances by ceil(L / 64); a payload that would need a block above
counter 0xFFFFFFFF is refused whole; an empty payload needs no block. -/
def Obligations.TransformXorsTheKeystream : Prop :=
  (HasOnlyWords .transformRef 0x30000000#32 0#32 ∧ HasOnlyWords .transformRo 0x30100000#32 0#32 ∧
    HasOnlyWords .transformVec 0x30200000#32 0#32 ∧
    ∀ cmd imm : Word, cmd.extractLsb 31 24 = 0x30#8 →
      cmd.extractLsb 19 0 ≠ 0#20 ∨ 2 < (cmd.extractLsb 23 20).toNat ∨ imm ≠ 0#32 → IsIllegal cmd imm) ∧
  ∀ (i : Instr) (tier : Tier) (s : State), transformTier i = some tier →
    (s.kv = false → exec i s = .next (s.answer .notConstructed [])) ∧
    (s.kv = true → s.data = [] → exec i s = .next (s.answer .ok [])) ∧
    (s.kv = true → s.data ≠ [] → 2 ^ 32 < s.nbi + (s.data.length + 63) / 64 →
      exec i s = .next (s.answer .counterOverflow [])) ∧
    (s.kv = true → s.data ≠ [] → s.nbi + (s.data.length + 63) / 64 ≤ 2 ^ 32 →
      ∃ (h : Hidden) (out : List Byte), out.length = s.data.length ∧
        (∀ k : Nat, k < s.data.length →
          byteAt out k = byteAt s.data k ^^^ byteAt (s.block (BitVec.ofNat 32 (s.nbi + k / 64))) (k % 64)) ∧
        exec i s = .next
          ({ s with ctr := BitVec.ofNat 32 (s.nbi + (s.data.length + 63) / 64),
                    exh := decide (s.nbi + (s.data.length + 63) / 64 = 2 ^ 32), hidden := h }.answer .ok out))

/-- R94: a second name has the words and the effect of its core command, and its words decode to the core command. -/
def Obligations.SecondNamesAreTheirCoreCommands : Prop :=
  (∀ (t : Tier) (s : State), exec (.encrypt t) s = exec t.transform s ∧ exec (.decrypt t) s = exec t.transform s) ∧
  (∀ (v : Word) (s : State), exec (.seek v) s = exec (.setctr v) s) ∧
  (∀ t : Tier, encode (.encrypt t) = encode t.transform ∧ encode (.decrypt t) = encode t.transform ∧
    decode (encode (.encrypt t)).1 (encode (.encrypt t)).2 = .ok t.transform) ∧
  (∀ v : Word, encode (.seek v) = encode (.setctr v) ∧
    decode (encode (.seek v)).1 (encode (.seek v)).2 = .ok (.setctr v))

/-! ### Errors -/

/-- R223: every command answers, and with the status of the first check that fails in the order of R223's tables; words
that decode to no command are answered with IllegalCommand before any other check. -/
def Obligations.FirstFailingCheckIsReported : Prop :=
  (∀ (i : Instr) (s : State), ∃ (t : State) (r : Response),
    exec i s = .next t ∧ t.rsp = some r ∧ r.status = firstFailing i s.data.length s) ∧
  (∀ (cmd imm : Word) (e : DecodeReject), decode cmd imm = .error e → IsIllegal cmd imm)

/-- R224: a status other than OK comes with no bytes and leaves every register, DATA, the port and the host's side as
they were. -/
def Obligations.ErrorHasNoEffect : Prop :=
  ∀ (s t : State) (r : Response),
    (∃ i, exec i s = .next t) ∨ (∃ cmd imm, execute cmd imm s = .next t) → t.rsp = some r → r.status ≠ .ok →
    r.rdata = [] ∧ t.registers = s.registers ∧ t.data = s.data ∧ t.port = s.port ∧ t.inbox = s.inbox ∧
      t.outbox = s.outbox ∧ t.params = s.params

/-- R85: the opcodes that are not in the opcode map are illegal with every other bit and every IMM, the all-zero word
among them. -/
def Obligations.UnassignedOpcodesAreIllegal : Prop :=
  ∀ cmd imm : Word,
    cmd.extractLsb 31 24 ∉ [0x01#8, 0x02#8, 0x03#8, 0x10#8, 0x11#8, 0x12#8, 0x20#8, 0x21#8, 0x30#8] → IsIllegal cmd imm

/-- R220: the numeric STATUS of each code. -/
def Obligations.StatusCodesAreAsListed : Prop :=
  Status.ok.code = 0x00#8 ∧ Status.invalidKeySize.code = 0x01#8 ∧ Status.invalidNonceSize.code = 0x02#8 ∧
  Status.counterOverflow.code = 0x03#8 ∧ Status.illegalCommand.code = 0x10#8 ∧ Status.malformedPayload.code = 0x11#8 ∧
  Status.notConstructed.code = 0x12#8 ∧ ∀ a b : Status, a.code = b.code → a = b

/-- R222: with KV = 0 the commands that read the cipher state answer NotConstructed when their payload length is right,
and CONSTRUCT, ROTL, QROUND and BLOCKFN never do. -/
def Obligations.NotConstructedIsForStateReaders : Prop :=
  (∀ (i : Instr) (s : State), (∃ v, i = .setctr v ∨ i = .seek v) ∨ i = .getctr ∨ isKeystream i = true → s.kv = false →
    (requiredLen i = none ∨ requiredLen i = some s.data.length) → exec i s = .next (s.answer .notConstructed [])) ∧
  (∀ (i : Instr) (s t : State) (r : Response),
    (∃ k n, i = .construct k n) ∨ (∃ x n, i = .rotl x n) ∨ i = .qround ∨ (∃ b, i = .blockfn b) →
    exec i s = .next t → t.rsp = some r → r.status ≠ .notConstructed)

/-- R186: after CounterOverflow the registers are as before and the engine is not locked: SETCTR is accepted and KSBLOCK
then produces the block of the new counter, CONSTRUCT is accepted, and a request that fits succeeds. -/
def Obligations.OverflowDoesNotLockTheEngine : Prop :=
  ∀ (i : Instr) (s t : State), exec i s = .next t → t.rsp = some { status := .counterOverflow, rdata := [] } →
    t.registers = s.registers ∧
    (∀ v : Word, ∃ u w : State,
      exec (.setctr v) (t.load []) = .next u ∧ u.rsp = some { status := .ok, rdata := [] } ∧
      exec .ksblock (u.load []) = .next w ∧ w.rsp = some { status := .ok, rdata := s.block v }) ∧
    (∀ data : List Byte, data.length = 44 → ∃ u : State,
      exec (.construct 32#8 12#8) (t.load data) = .next u ∧ u.rsp = some { status := .ok, rdata := [] }) ∧
    (∀ (tier : Tier) (data : List Byte), s.nbi + (data.length + 63) / 64 ≤ 2 ^ 32 → ∃ (u : State) (c : List Byte),
      exec tier.transform (t.load data) = .next u ∧ u.rsp = some { status := .ok, rdata := c } ∧
      c.length = data.length)

/-! ### Frames -/

/-- R121, R123, R125: the diagnostic commands write no register of R38 and read none: whatever the registers are, they
leave them and give the same response. -/
def Obligations.DiagnosticsReadAndWriteNoRegister : Prop :=
  ∀ (i : Instr) (s : State) (g : Registers), (∃ x n, i = .rotl x n) ∨ i = .qround ∨ (∃ b, i = .blockfn b) →
    ∃ (t u : State), exec i s = .next t ∧
      exec i { s with kv := g.kv, exh := g.exh, key := g.key, nonce := g.nonce, ctr := g.ctr } = .next u ∧
      t = { s with hidden := t.hidden, rsp := t.rsp } ∧ u.rsp = t.rsp ∧ u.registers = g

/-- R203, R205, R200: the control commands change nothing but the registers their rules name: SETCTR writes CTR and EXH,
GETCTR nothing, CONSTRUCT KEY, NONCE, CTR, EXH and KV. -/
def Obligations.ControlCommandsFrame : Prop :=
  ∀ s t : State,
    (∀ v i, i = .setctr v ∨ i = .seek v → exec i s = .next t → t = { s with ctr := t.ctr, exh := t.exh, rsp := t.rsp }) ∧
    (exec .getctr s = .next t → t = { s with rsp := t.rsp }) ∧
    (∀ k n, exec (.construct k n) s = .next t →
      t = { s with key := t.key, nonce := t.nonce, ctr := t.ctr, exh := t.exh, kv := t.kv, rsp := t.rsp })

/-- R35, R40, R146: a keystream command changes nothing but CTR, EXH and the hidden registers; KEY, NONCE and KV survive. -/
def Obligations.KeystreamCommandsFrame : Prop :=
  ∀ (i : Instr) (s t : State), isKeystream i = true → exec i s = .next t →
    t = { s with ctr := t.ctr, exh := t.exh, hidden := t.hidden, rsp := t.rsp }

/-- R35, R37: a step changes KEY, NONCE or KV only by reset or by executing a CONSTRUCT. That over the port the command is
executed at the payload byte that completes its payload is the model's choice (log entry 9). -/
def Obligations.OnlyConstructAndResetChangeTheKey : Prop :=
  ∀ s t : State, step s = .next t → (t.key ≠ s.key ∨ t.nonce ≠ s.nonce ∨ t.kv ≠ s.kv) →
    ∃ (e : HostEvent) (rest : List HostEvent), s.inbox = e :: rest ∧
      (e = .reset ∨
        ∃ (cmd imm : Word) (k n : BitVec 8), decode cmd imm = .ok (.construct k n) ∧
          ((∃ data, e = .command { cmd := cmd, imm := imm, data := data }) ∨
            (∃ (b : Byte) (p : Transfer), e = .payloadTransfer b ∧ s.port = .busy p ∧ p.cmd = cmd ∧ p.imm = imm ∧
              s.data.length + 1 = p.len.toNat)))

/-- R38: the response of a command that produces no keystream does not depend on KEY or NONCE. -/
def Obligations.OnlyKeystreamDependsOnTheKey : Prop :=
  ∀ (i : Instr) (s : State) (key : Vector Word 8) (nonce : Vector Word 3), isKeystream i = false →
    ∃ t u : State, exec i s = .next t ∧ exec i { s with key := key, nonce := nonce } = .next u ∧ u.rsp = t.rsp

/-- R66: repeating a command. GETCTR and the diagnostic commands give the same response again and leave the registers;
CONSTRUCT and SETCTR, repeated, leave the registers as the first left them; a keystream command that consumed blocks has
moved NBI, so its repetition starts elsewhere. -/
def Obligations.RepeatedCommands : Prop :=
  (∀ (i : Instr) (s : State), i = .getctr ∨ (∃ x n, i = .rotl x n) ∨ i = .qround ∨ (∃ b, i = .blockfn b) →
    ∃ t u : State, exec i s = .next t ∧ exec i (t.load s.data) = .next u ∧ u.rsp = t.rsp ∧
      t.registers = s.registers ∧ u.registers = s.registers) ∧
  (∀ (i : Instr) (s : State), (∃ k n, i = .construct k n) ∨ (∃ v, i = .setctr v ∨ i = .seek v) →
    ∃ t u : State, exec i s = .next t ∧ exec i (t.load s.data) = .next u ∧ u.registers = t.registers) ∧
  (∀ (i : Instr) (s : State), isKeystream i = true → 1 ≤ blocksNeeded i s.data.length →
    ∃ (t : State) (r : Response), exec i s = .next t ∧ t.rsp = some r ∧ (r.status = .ok → t.nbi ≠ s.nbi))

/-! ### Counter bookkeeping -/

/-- R36, R183, R184: a command that is no CONSTRUCT, SETCTR or SEEK advances NBI by exactly the blocks it consumed if it
answers OK, leaves it otherwise, and never carries it past 2^32. -/
def Obligations.CounterAdvancesByTheBlocksConsumed : Prop :=
  ∀ (i : Instr) (s : State), s.nbi ≤ 2 ^ 32 → (∀ k n, i ≠ .construct k n) → (∀ v, i ≠ .setctr v ∧ i ≠ .seek v) →
    ∃ (t : State) (r : Response), exec i s = .next t ∧ t.rsp = some r ∧
      t.nbi = s.nbi + (if r.status = .ok then blocksNeeded i s.data.length else 0) ∧ t.nbi ≤ 2 ^ 32

/-- R183: a keystream command that needs n blocks answers CounterOverflow exactly when NBI + n > 2^32, once its payload
length and KV allow the check; it then gives no byte and leaves CTR and EXH. -/
def Obligations.OverflowExactlyWhenACounterWouldExceed : Prop :=
  ∀ (i : Instr) (s : State), isKeystream i = true → s.kv = true →
    (requiredLen i = none ∨ requiredLen i = some s.data.length) → 1 ≤ blocksNeeded i s.data.length →
    ∃ (t : State) (r : Response), exec i s = .next t ∧ t.rsp = some r ∧
      (r.status = .counterOverflow ↔ 2 ^ 32 < s.nbi + blocksNeeded i s.data.length) ∧
      (r.status = .counterOverflow → r.rdata = [] ∧ t.ctr = s.ctr ∧ t.exh = s.exh) ∧
      (r.status ≠ .counterOverflow → r.status = .ok)

/-! ### Invariants over every step, and noninterference -/

/-- R36, R46, R255: every step keeps the invariant. -/
def Obligations.EveryStepKeepsTheInvariant : Prop :=
  ∀ s t : State, Inv s → step s = .next t → Inv t

/-- R45: no step's outcome depends on the hidden registers, and what follows does not either. -/
def Obligations.HiddenStateIsNeverObserved : Prop :=
  ∀ s t : State, SameButHidden s t →
    (∀ s' : State, step s = .next s' → ∃ t' : State, step t = .next t' ∧ SameButHidden s' t') ∧
    (∀ r : Refusal, step s = .refused r → step t = .refused r)

/-- R37, R46: while KV = 0 no step's outcome depends on KEY, NONCE or CTR: two states that differ only there go on to
states that are equal, or that again differ only there with KV = 0. -/
def Obligations.UnconstructedWordsAreNeverRead : Prop :=
  ∀ s t : State, SameButValues s t →
    (∀ s' : State, step s = .next s' → ∃ t' : State, step t = .next t' ∧ (t' = s' ∨ SameButValues s' t')) ∧
    (∀ r : Refusal, step s = .refused r → step t = .refused r)

/-! ### The datapaths -/

/-- R111, R112, R113, R116: the quarter round line by line, and the column round, the diagonal round, the double round and
the core, every word by its index. -/
def Obligations.RoundsMixColumnsAndDiagonals : Prop :=
  (∀ a b c d : Word,
    let a1 := a + b;   let d1 := (d ^^^ a1).rotateLeft 16
    let c1 := c + d1;  let b1 := (b ^^^ c1).rotateLeft 12
    let a2 := a1 + b1; let d2 := (d1 ^^^ a2).rotateLeft 8
    let c2 := c1 + d2; let b2 := (b1 ^^^ c2).rotateLeft 7
    quarterRound { a := a, b := b, c := c, d := d } = { a := a2, b := b2, c := c2, d := d2 }) ∧
  ∀ w : Words16,
    (let q0 := quarterRound { a := w[0], b := w[4], c := w[8], d := w[12] }
     let q1 := quarterRound { a := w[1], b := w[5], c := w[9], d := w[13] }
     let q2 := quarterRound { a := w[2], b := w[6], c := w[10], d := w[14] }
     let q3 := quarterRound { a := w[3], b := w[7], c := w[11], d := w[15] }
     colround w = #v[q0.a, q1.a, q2.a, q3.a, q0.b, q1.b, q2.b, q3.b, q0.c, q1.c, q2.c, q3.c, q0.d, q1.d, q2.d, q3.d]) ∧
    (let q0 := quarterRound { a := w[0], b := w[5], c := w[10], d := w[15] }
     let q1 := quarterRound { a := w[1], b := w[6], c := w[11], d := w[12] }
     let q2 := quarterRound { a := w[2], b := w[7], c := w[8], d := w[13] }
     let q3 := quarterRound { a := w[3], b := w[4], c := w[9], d := w[14] }
     diaground w = #v[q0.a, q1.a, q2.a, q3.a, q3.b, q0.b, q1.b, q2.b, q2.c, q3.c, q0.c, q1.c, q1.d, q2.d, q3.d, q0.d]) ∧
    doubleround w = diaground (colround w) ∧
    core20 w = doubleround (doubleround (doubleround (doubleround (doubleround
      (doubleround (doubleround (doubleround (doubleround (doubleround w)))))))))

/-- R142: block(t) is the core of S(t), with the feed-forward add, serialized; S(t) word by word as R33 lists it. -/
def Obligations.BlockIsTheCoreOfTheCipherState : Prop :=
  ∀ (s : State) (t : Word),
    s.cipher t = #v[0x61707865#32, 0x3320646e#32, 0x79622d32#32, 0x6b206574#32,
      s.key[0], s.key[1], s.key[2], s.key[3], s.key[4], s.key[5], s.key[6], s.key[7],
      t, s.nonce[0], s.nonce[1], s.nonce[2]] ∧
    s.block t = serWords (Vector.ofFn fun i : Fin 16 => (core20 (s.cipher t))[i] + (s.cipher t)[i]).toList

/-- R115, R119: applying the four quarter rounds of a round one after the other or all at once gives the same words. -/
def Obligations.ScalarArrangementsAgree : Prop :=
  ∀ (p : RoundPhase) (w : Words16), reducedRound p w = referenceRound p w

/-- R44, R120: the sequencer starts at double round 0, column phase, alternates the phases, and is done after exactly 20
rounds, in the scalar and in the 8-lane datapath. -/
def Obligations.SequencerRunsTwentyRounds : Prop :=
  ∀ (round : RoundPhase → Words16 → Words16) (vround : RoundPhase → Vector LaneVec 16 → Vector LaneVec 16)
    (x : Words16) (lo : Vector LaneVec 16) (h : Hidden) (n : Fin 20),
    (Nat.iterate (Hidden.stepScalar round) n.val (h.loadScalar x)).seq
      = some (⟨n.val / 2, by omega⟩, if n.val % 2 = 0 then .column else .diagonal) ∧
    (Nat.iterate (Hidden.stepScalar round) 20 (h.loadScalar x)).seq = none ∧
    (Nat.iterate (Hidden.stepLanes vround) n.val (h.loadLanes lo)).seq
      = some (⟨n.val / 2, by omega⟩, if n.val % 2 = 0 then .column else .diagonal) ∧
    (Nat.iterate (Hidden.stepLanes vround) 20 (h.loadLanes lo)).seq = none

/-- R160, R162, R163: the first k bytes of a batch from counter t are the first k bytes of the scalar keystream from t,
also where lane counters wrap. -/
def Obligations.LanesEqualTheScalarKeystream : Prop :=
  ∀ (s : State) (t : Word) (h : Hidden) (k : Nat), k ≤ 512 →
    (h.runLanes (laneOriginals s t)).emit.take k
      = ((List.range 8).flatMap fun l => s.block (t + BitVec.ofNat 32 l)).take k

/-- R42, R161: lane l of a 256-bit vector register is bits [32l+31:32l], and the vector operations act on each lane alone. -/
def Obligations.VectorOperationsActPerLane : Prop :=
  ∀ (u v : LaneVec) (n : Nat) (l : Fin 8),
    (laneBits u).extractLsb' (32 * l.val) 32 = u[l] ∧ (vadd u v)[l] = u[l] + v[l] ∧ (vxor u v)[l] = u[l] ^^^ v[l] ∧
    (0 < n → n < 32 → (vrotl u n)[l] = u[l].rotateLeft n)

/-- R182: the three tiers of TRANSFORM answer the same and leave the same state, but for the hidden registers. -/
def Obligations.TiersAreIndistinguishable : Prop :=
  ∀ (t1 t2 : Tier) (s : State), ∃ u v : State,
    exec t1.transform s = .next u ∧ exec t2.transform s = .next v ∧ SameButHidden u v

/-- R165: one KSBATCH that succeeds gives the concatenated responses of eight KSBLOCKs and the same registers. -/
def Obligations.BatchEqualsEightKsblocks : Prop :=
  ∀ s : State, s.port = .idle → s.kv = true → s.exh = false → s.ctr.toNat ≤ 0xFFFFFFF8 →
    ∃ (u v : State) (rs : List Response),
      step { s with inbox := [.command ksbatchRequest] } = .next u ∧
      runSteps 8 { s with inbox := List.replicate 8 (.command ksblockRequest) } = .next v ∧
      v.outbox = s.outbox ++ rs ∧ rs.length = 8 ∧ (∀ r ∈ rs, r.status = .ok ∧ r.rdata.length = 64) ∧
      u.outbox = s.outbox ++ [{ status := .ok, rdata := rs.flatMap Response.rdata }] ∧ u.registers = v.registers

/-- R148: KSBLOCK and TRANSFORM of 64 zero bytes at any tier give the same response and the same registers. -/
def Obligations.KsblockEqualsTransformOfZeros : Prop :=
  ∀ (tier : Tier) (s : State), ∃ u v : State,
    exec .ksblock (s.load []) = .next u ∧ exec tier.transform (s.load (List.replicate 64 0#8)) = .next v ∧
    u.rsp = v.rsp ∧ u.registers = v.registers

/-- R187: applying TRANSFORM twice, at any two tiers, with the counter set back in between returns the data. -/
def Obligations.TransformIsAnInvolution : Prop :=
  ∀ (t1 t2 : Tier) (s u : State) (c : List Byte),
    exec t1.transform s = .next u → u.rsp = some { status := .ok, rdata := c } →
    ∃ v w : State, exec (.setctr s.ctr) (u.load []) = .next v ∧ v.rsp = some { status := .ok, rdata := [] } ∧
      exec t2.transform (v.load c) = .next w ∧ w.rsp = some { status := .ok, rdata := s.data }

/-- R185: two TRANSFORMs of DATA1 and DATA2 give the bytes and the registers of one TRANSFORM of DATA1 || DATA2 when
len(DATA1) is a multiple of 64 (and the whole fits). -/
def Obligations.TransformSplitsAtBlockBoundaries : Prop :=
  ∀ (tier : Tier) (s : State) (d1 d2 : List Byte), s.kv = true → d1.length % 64 = 0 →
    s.nbi + ((d1 ++ d2).length + 63) / 64 ≤ 2 ^ 32 →
    ∃ (u v w : State) (c1 c2 : List Byte),
      exec tier.transform (s.load d1) = .next u ∧ u.rsp = some { status := .ok, rdata := c1 } ∧
      exec tier.transform (u.load d2) = .next v ∧ v.rsp = some { status := .ok, rdata := c2 } ∧
      exec tier.transform (s.load (d1 ++ d2)) = .next w ∧ w.rsp = some { status := .ok, rdata := c1 ++ c2 } ∧
      w.registers = v.registers

/-! ### Words and bytes -/

/-- R122: ROTL by n and then by 32 - n returns the word. -/
def Obligations.RotlTwiceReturnsTheWord : Prop :=
  ∀ (x : Word) (n : BitVec 5) (s : State), n ≠ 0#5 → s.data = [] →
    ∃ (y : Word) (t u : State), exec (.rotl x n) s = .next t ∧ t.rsp = some { status := .ok, rdata := ser32 y } ∧
      exec (.rotl y (BitVec.ofNat 5 (32 - n.toNat))) (t.load []) = .next u ∧
      u.rsp = some { status := .ok, rdata := ser32 x }

/-- R117: core20 of the all-zero array is the all-zero array. -/
def Obligations.CoreOfZerosIsZeros : Prop :=
  core20 (Vector.replicate 16 0#32) = Vector.replicate 16 0#32

/-- R63, R144: byte k of a block is byte k mod 4, least significant first, of result word k div 4, and a block has 64
bytes. -/
def Obligations.SerializerPlacesEveryByte : Prop :=
  ∀ (x : Words16), (blockOf x).length = 64 ∧
    ∀ k : Fin 64, byteAt (blockOf x) k.val
      = ((core20 x)[k.val / 4]'(by omega) + x[k.val / 4]'(by omega)).extractLsb' (8 * (k.val % 4)) 8

/-- R14: the byte order of LE32 and ser32, and that they are inverse to each other. -/
def Obligations.LittleEndianConversionsAreInverse : Prop :=
  (∀ (d : List Byte) (i : Nat) (j : Fin 4), (le32 d i).extractLsb' (8 * j.val) 8 = byteAt d (i + j.val)) ∧
  (∀ w : Word, ser32 w = [w.extractLsb 7 0, w.extractLsb 15 8, w.extractLsb 23 16, w.extractLsb 31 24]) ∧
  serWords [] = [] ∧ (∀ (w : Word) (ws : List Word), serWords (w :: ws) = ser32 w ++ serWords ws) ∧
  (∀ (w : Word) (pre post : List Byte), le32 (pre ++ ser32 w ++ post) pre.length = w) ∧
  (∀ (a b c d : Byte), ser32 (le32 [a, b, c, d] 0) = [a, b, c, d])

/-! ### Encoding -/

/-- Decoding the words of a well-formed command gives the command, a second name giving its core command (R84, R91, R94). -/
def Obligations.DecodeOfEncodeIsTheCommand : Prop :=
  ∀ i : Instr, i.wellFormed = true → decode (encode i).1 (encode i).2 = .ok i.canonical

/-- R91: a word pair that decodes is the encoding of the command it decodes to, which is well-formed and a core command. -/
def Obligations.EncodeOfDecodeIsTheWords : Prop :=
  ∀ (cmd imm : Word) (i : Instr), decode cmd imm = .ok i →
    encode i = (cmd, imm) ∧ i.wellFormed = true ∧ i.canonical = i

/-- A sanity statement: words written out from R84 decode to what they stand for. -/
def Obligations.SampleWordsDecode : Prop :=
  decode 0x0100200C#32 0#32 = .ok (.construct 32#8 12#8) ∧ decode 0x02000000#32 7#32 = .ok (.setctr 7#32) ∧
  decode 0x1000001F#32 0x80000000#32 = .ok (.rotl 0x80000000#32 31#5) ∧ decode 0x12000001#32 0#32 = .ok (.blockfn true) ∧
  decode 0x21000000#32 0#32 = .ok .ksbatch ∧ decode 0x30200000#32 0#32 = .ok .transformVec ∧
  decode 0x30300000#32 0#32 = .error .reservedTier ∧ decode 0x10000000#32 1#32 = .error .rotateByZero

/-! ### The port -/

/-- R255, R256: status and length of the response depend on CMD, IMM, req_len and the registers only, by the checks of
R223; and what the port offers as rsp_status and rsp_len, before the payload is complete or after, is the status and the
length of the response that executing the complete payload gives. -/
def Obligations.ResponseHeaderNeedsNoPayload : Prop :=
  (∀ (cmd imm : Word) (data : List Byte) (s : State), ∃ (t : State) (r : Response),
    execute cmd imm (s.load data) = .next t ∧ t.rsp = some r ∧
    r.status = requestStatus cmd imm data.length s ∧ r.rdata.length = requestRspLen cmd imm data.length s) ∧
  (∀ (s : State) (t : Transfer) (more : List Byte),
    s.port = .busy t → s.rsp = none → (s.data ++ more).length = t.len.toNat →
    ∃ (u : State) (r : Response), execute t.cmd t.imm { s with data := s.data ++ more } = .next u ∧ u.rsp = some r ∧
      s.rspStatus t = r.status ∧ s.rspLen t = r.rdata.length) ∧
  (∀ (s : State) (t : Transfer) (r : Response), s.port = .busy t → s.rsp = some r →
    s.rspStatus t = r.status ∧ s.rspLen t = r.rdata.length)

/-- R255, R16: carrying a request over the port transfer by transfer is the atomic command: the same state in the end, and
what is handed over on the way is the status, the length and the bytes of the response delivered. -/
def Obligations.PortTransfersCarryTheCommand : Prop :=
  ∀ (s : State) (r : Request) (rest : List HostEvent),
    s.port = .idle → r.data.length < 2 ^ 40 →
    ∃ (t : State) (a : Response), step { s with inbox := .command r :: rest } = .next t ∧ t.outbox = s.outbox ++ [a] ∧
      runSteps
          (2 + r.data.length + requestRspLen r.cmd r.imm r.data.length s)
          { s with inbox := transfersOf r (requestRspLen r.cmd r.imm r.data.length s) ++ rest } = .next t ∧
      offersIn
          (2 + r.data.length + requestRspLen r.cmd r.imm r.data.length s)
          { s with inbox := transfersOf r (requestRspLen r.cmd r.imm r.data.length s) ++ rest } = offersOf a

/-- R255, R256, R16: the same for every order of the transfers of a transaction that the signals allow, the response
transfer before the payload and response bytes among the payload bytes included (which orders there are is log entries 9,
10 and 20). -/
def Obligations.AnyTransferOrderCarriesTheCommand : Prop :=
  ∀ (s t : State) (cmd imm : Word) (len : BitVec 40) (es rest : List HostEvent),
    s.port = .idle → (∀ e ∈ es, e.isInside = true) →
    runSteps (1 + es.length) { s with inbox := .requestTransfer cmd imm len :: (es ++ rest) } = .next t →
    t.port = .idle →
    ∃ a : Response, (es.flatMap HostEvent.payload).length = len.toNat ∧
      step { s with inbox := .command { cmd := cmd, imm := imm, data := es.flatMap HostEvent.payload } :: rest }
        = .next t ∧
      t.outbox = s.outbox ++ [a] ∧
      offersIn (1 + es.length) { s with inbox := .requestTransfer cmd imm len :: (es ++ rest) } = offersOf a

/-- A response byte that the port offers before the payload is complete is the byte of the response that executing the
complete payload gives, and once the response is there the byte offered is its byte; the reason is that TRANSFORM of a
first part of the payload gives the first bytes of TRANSFORM of the whole (the model's choice to offer bytes early is log
entry 10). -/
def Obligations.EarlyTransformBytesAreFinal : Prop :=
  (∀ (tier : Tier) (s : State) (d1 d2 : List Byte),
    (transformBytes tier s (d1 ++ d2)).take d1.length = transformBytes tier s d1) ∧
  (∀ (s : State) (t : Transfer) (more : List Byte),
    s.port = .busy t → s.rsp = none → (s.data ++ more).length = t.len.toNat → s.doutValid = true →
    ∃ (u : State) (r : Response), execute t.cmd t.imm { s with data := s.data ++ more } = .next u ∧ u.rsp = some r ∧
      t.sent < r.rdata.length ∧ s.doutData t = byteAt r.rdata t.sent) ∧
  (∀ (s : State) (t : Transfer) (r : Response), s.port = .busy t → s.rsp = some r → s.doutValid = true →
    t.sent < r.rdata.length ∧ s.doutData t = byteAt r.rdata t.sent)
end

