-- ==== Sys2Proof/Laws/State.lean ====
section
/-! SUPPORT. One lemma per field of State per update operation, all true by definition, so that no proof unfolds a record
update; and the same for what is read through an update. -/

namespace Sys2Proof.Machine

/-! ### State.answer -/

@[simp] theorem State.answer_kv (s : State) (st : Status) (rdata : List Byte) : (s.answer st rdata).kv = s.kv := rfl
@[simp] theorem State.answer_exh (s : State) (st : Status) (rdata : List Byte) : (s.answer st rdata).exh = s.exh := rfl
@[simp] theorem State.answer_key (s : State) (st : Status) (rdata : List Byte) : (s.answer st rdata).key = s.key := rfl
@[simp] theorem State.answer_nonce (s : State) (st : Status) (rdata : List Byte) : (s.answer st rdata).nonce = s.nonce := rfl
@[simp] theorem State.answer_ctr (s : State) (st : Status) (rdata : List Byte) : (s.answer st rdata).ctr = s.ctr := rfl
@[simp] theorem State.answer_hidden (s : State) (st : Status) (rdata : List Byte) : (s.answer st rdata).hidden = s.hidden := rfl
@[simp] theorem State.answer_data (s : State) (st : Status) (rdata : List Byte) : (s.answer st rdata).data = s.data := rfl
@[simp] theorem State.answer_rsp (s : State) (st : Status) (rdata : List Byte) : (s.answer st rdata).rsp = some { status := st, rdata := rdata } := rfl
@[simp] theorem State.answer_port (s : State) (st : Status) (rdata : List Byte) : (s.answer st rdata).port = s.port := rfl
@[simp] theorem State.answer_inbox (s : State) (st : Status) (rdata : List Byte) : (s.answer st rdata).inbox = s.inbox := rfl
@[simp] theorem State.answer_outbox (s : State) (st : Status) (rdata : List Byte) : (s.answer st rdata).outbox = s.outbox := rfl
@[simp] theorem State.answer_params (s : State) (st : Status) (rdata : List Byte) : (s.answer st rdata).params = s.params := rfl
@[simp] theorem State.answer_freeCount (s : State) (st : Status) (rdata : List Byte) : (s.answer st rdata).freeCount = s.freeCount := rfl

/-! ### State.load -/

@[simp] theorem State.load_kv (s : State) (d : List Byte) : (s.load d).kv = s.kv := rfl
@[simp] theorem State.load_exh (s : State) (d : List Byte) : (s.load d).exh = s.exh := rfl
@[simp] theorem State.load_key (s : State) (d : List Byte) : (s.load d).key = s.key := rfl
@[simp] theorem State.load_nonce (s : State) (d : List Byte) : (s.load d).nonce = s.nonce := rfl
@[simp] theorem State.load_ctr (s : State) (d : List Byte) : (s.load d).ctr = s.ctr := rfl
@[simp] theorem State.load_hidden (s : State) (d : List Byte) : (s.load d).hidden = s.hidden := rfl
@[simp] theorem State.load_data (s : State) (d : List Byte) : (s.load d).data = d := rfl
@[simp] theorem State.load_rsp (s : State) (d : List Byte) : (s.load d).rsp = none := rfl
@[simp] theorem State.load_port (s : State) (d : List Byte) : (s.load d).port = s.port := rfl
@[simp] theorem State.load_inbox (s : State) (d : List Byte) : (s.load d).inbox = s.inbox := rfl
@[simp] theorem State.load_outbox (s : State) (d : List Byte) : (s.load d).outbox = s.outbox := rfl
@[simp] theorem State.load_params (s : State) (d : List Byte) : (s.load d).params = s.params := rfl
@[simp] theorem State.load_freeCount (s : State) (d : List Byte) : (s.load d).freeCount = s.freeCount := rfl

/-! ### State.forgetHidden -/

@[simp] theorem State.forgetHidden_kv (s : State) : (s.forgetHidden).kv = s.kv := rfl
@[simp] theorem State.forgetHidden_exh (s : State) : (s.forgetHidden).exh = s.exh := rfl
@[simp] theorem State.forgetHidden_key (s : State) : (s.forgetHidden).key = s.key := rfl
@[simp] theorem State.forgetHidden_nonce (s : State) : (s.forgetHidden).nonce = s.nonce := rfl
@[simp] theorem State.forgetHidden_ctr (s : State) : (s.forgetHidden).ctr = s.ctr := rfl
@[simp] theorem State.forgetHidden_hidden (s : State) : (s.forgetHidden).hidden = Config.freeHidden s.freeCount := rfl
@[simp] theorem State.forgetHidden_data (s : State) : (s.forgetHidden).data = s.data := rfl
@[simp] theorem State.forgetHidden_rsp (s : State) : (s.forgetHidden).rsp = s.rsp := rfl
@[simp] theorem State.forgetHidden_port (s : State) : (s.forgetHidden).port = s.port := rfl
@[simp] theorem State.forgetHidden_inbox (s : State) : (s.forgetHidden).inbox = s.inbox := rfl
@[simp] theorem State.forgetHidden_outbox (s : State) : (s.forgetHidden).outbox = s.outbox := rfl
@[simp] theorem State.forgetHidden_params (s : State) : (s.forgetHidden).params = s.params := rfl
@[simp] theorem State.forgetHidden_freeCount (s : State) : (s.forgetHidden).freeCount = s.freeCount + 1 := rfl

/-! ### State.deliver -/

@[simp] theorem State.deliver_kv (s : State) : (s.deliver).kv = s.kv := rfl
@[simp] theorem State.deliver_exh (s : State) : (s.deliver).exh = s.exh := rfl
@[simp] theorem State.deliver_key (s : State) : (s.deliver).key = s.key := rfl
@[simp] theorem State.deliver_nonce (s : State) : (s.deliver).nonce = s.nonce := rfl
@[simp] theorem State.deliver_ctr (s : State) : (s.deliver).ctr = s.ctr := rfl
@[simp] theorem State.deliver_hidden (s : State) : (s.deliver).hidden = Config.freeHidden s.freeCount := rfl
@[simp] theorem State.deliver_data (s : State) : (s.deliver).data = [] := rfl
@[simp] theorem State.deliver_rsp (s : State) : (s.deliver).rsp = none := rfl
@[simp] theorem State.deliver_port (s : State) : (s.deliver).port = .idle := rfl
@[simp] theorem State.deliver_inbox (s : State) : (s.deliver).inbox = s.inbox := rfl
@[simp] theorem State.deliver_outbox (s : State) : (s.deliver).outbox = s.outbox ++ s.rsp.toList := rfl
@[simp] theorem State.deliver_params (s : State) : (s.deliver).params = s.params := rfl
@[simp] theorem State.deliver_freeCount (s : State) : (s.deliver).freeCount = s.freeCount + 1 := rfl

/-! ### State.engineReset -/

@[simp] theorem State.engineReset_kv (s : State) : (s.engineReset).kv = false := rfl
@[simp] theorem State.engineReset_exh (s : State) : (s.engineReset).exh = false := rfl
@[simp] theorem State.engineReset_key (s : State) : (s.engineReset).key = Vector.replicate 8 Config.resetWord := rfl
@[simp] theorem State.engineReset_nonce (s : State) : (s.engineReset).nonce = Vector.replicate 3 Config.resetWord := rfl
@[simp] theorem State.engineReset_ctr (s : State) : (s.engineReset).ctr = Config.resetWord := rfl
@[simp] theorem State.engineReset_hidden (s : State) : (s.engineReset).hidden = Config.freeHidden s.freeCount := rfl
@[simp] theorem State.engineReset_data (s : State) : (s.engineReset).data = [] := rfl
@[simp] theorem State.engineReset_rsp (s : State) : (s.engineReset).rsp = none := rfl
@[simp] theorem State.engineReset_port (s : State) : (s.engineReset).port = .idle := rfl
@[simp] theorem State.engineReset_inbox (s : State) : (s.engineReset).inbox = s.inbox := rfl
@[simp] theorem State.engineReset_outbox (s : State) : (s.engineReset).outbox = s.outbox := rfl
@[simp] theorem State.engineReset_params (s : State) : (s.engineReset).params = s.params := rfl
@[simp] theorem State.engineReset_freeCount (s : State) : (s.engineReset).freeCount = s.freeCount + 1 := rfl

/-! ### State.setNbi -/

@[simp] theorem State.setNbi_kv (s : State) (n : Nat) : (s.setNbi n).kv = s.kv := rfl
@[simp] theorem State.setNbi_exh (s : State) (n : Nat) : (s.setNbi n).exh = n.testBit 32 := rfl
@[simp] theorem State.setNbi_key (s : State) (n : Nat) : (s.setNbi n).key = s.key := rfl
@[simp] theorem State.setNbi_nonce (s : State) (n : Nat) : (s.setNbi n).nonce = s.nonce := rfl
@[simp] theorem State.setNbi_ctr (s : State) (n : Nat) : (s.setNbi n).ctr = BitVec.ofNat 32 n := rfl
@[simp] theorem State.setNbi_hidden (s : State) (n : Nat) : (s.setNbi n).hidden = s.hidden := rfl
@[simp] theorem State.setNbi_data (s : State) (n : Nat) : (s.setNbi n).data = s.data := rfl
@[simp] theorem State.setNbi_rsp (s : State) (n : Nat) : (s.setNbi n).rsp = s.rsp := rfl
@[simp] theorem State.setNbi_port (s : State) (n : Nat) : (s.setNbi n).port = s.port := rfl
@[simp] theorem State.setNbi_inbox (s : State) (n : Nat) : (s.setNbi n).inbox = s.inbox := rfl
@[simp] theorem State.setNbi_outbox (s : State) (n : Nat) : (s.setNbi n).outbox = s.outbox := rfl
@[simp] theorem State.setNbi_params (s : State) (n : Nat) : (s.setNbi n).params = s.params := rfl
@[simp] theorem State.setNbi_freeCount (s : State) (n : Nat) : (s.setNbi n).freeCount = s.freeCount := rfl

/-! ### State.advance -/

@[simp] theorem State.advance_kv (s : State) (n : Nat) : (s.advance n).kv = s.kv := rfl
@[simp] theorem State.advance_exh (s : State) (n : Nat) : (s.advance n).exh = (s.nbi + n).testBit 32 := rfl
@[simp] theorem State.advance_key (s : State) (n : Nat) : (s.advance n).key = s.key := rfl
@[simp] theorem State.advance_nonce (s : State) (n : Nat) : (s.advance n).nonce = s.nonce := rfl
@[simp] theorem State.advance_ctr (s : State) (n : Nat) : (s.advance n).ctr = BitVec.ofNat 32 (s.nbi + n) := rfl
@[simp] theorem State.advance_hidden (s : State) (n : Nat) : (s.advance n).hidden = s.hidden := rfl
@[simp] theorem State.advance_data (s : State) (n : Nat) : (s.advance n).data = s.data := rfl
@[simp] theorem State.advance_rsp (s : State) (n : Nat) : (s.advance n).rsp = s.rsp := rfl
@[simp] theorem State.advance_port (s : State) (n : Nat) : (s.advance n).port = s.port := rfl
@[simp] theorem State.advance_inbox (s : State) (n : Nat) : (s.advance n).inbox = s.inbox := rfl
@[simp] theorem State.advance_outbox (s : State) (n : Nat) : (s.advance n).outbox = s.outbox := rfl
@[simp] theorem State.advance_params (s : State) (n : Nat) : (s.advance n).params = s.params := rfl
@[simp] theorem State.advance_freeCount (s : State) (n : Nat) : (s.advance n).freeCount = s.freeCount := rfl

/-! ### Values read from the registers -/

@[simp] theorem State.answer_nbi (s : State) (st : Status) (rdata : List Byte) : (s.answer st rdata).nbi = s.nbi := rfl
@[simp] theorem State.answer_cipher (s : State) (st : Status) (rdata : List Byte) (t : Word) : (s.answer st rdata).cipher t = s.cipher t := rfl
@[simp] theorem State.answer_block (s : State) (st : Status) (rdata : List Byte) (t : Word) : (s.answer st rdata).block t = s.block t := rfl
@[simp] theorem State.answer_registers (s : State) (st : Status) (rdata : List Byte) : (s.answer st rdata).registers = s.registers := rfl
@[simp] theorem State.load_nbi (s : State) (d : List Byte) : (s.load d).nbi = s.nbi := rfl
@[simp] theorem State.load_cipher (s : State) (d : List Byte) (t : Word) : (s.load d).cipher t = s.cipher t := rfl
@[simp] theorem State.load_block (s : State) (d : List Byte) (t : Word) : (s.load d).block t = s.block t := rfl
@[simp] theorem State.load_registers (s : State) (d : List Byte) : (s.load d).registers = s.registers := rfl
@[simp] theorem State.forgetHidden_nbi (s : State) : (s.forgetHidden).nbi = s.nbi := rfl
@[simp] theorem State.forgetHidden_cipher (s : State) (t : Word) : (s.forgetHidden).cipher t = s.cipher t := rfl
@[simp] theorem State.forgetHidden_block (s : State) (t : Word) : (s.forgetHidden).block t = s.block t := rfl
@[simp] theorem State.forgetHidden_registers (s : State) : (s.forgetHidden).registers = s.registers := rfl
@[simp] theorem State.deliver_nbi (s : State) : (s.deliver).nbi = s.nbi := rfl
@[simp] theorem State.deliver_cipher (s : State) (t : Word) : (s.deliver).cipher t = s.cipher t := rfl
@[simp] theorem State.deliver_block (s : State) (t : Word) : (s.deliver).block t = s.block t := rfl
@[simp] theorem State.deliver_registers (s : State) : (s.deliver).registers = s.registers := rfl
@[simp] theorem State.setNbi_cipher (s : State) (n : Nat) (t : Word) : (s.setNbi n).cipher t = s.cipher t := rfl
@[simp] theorem State.setNbi_block (s : State) (n : Nat) (t : Word) : (s.setNbi n).block t = s.block t := rfl
@[simp] theorem State.advance_cipher (s : State) (n : Nat) (t : Word) : (s.advance n).cipher t = s.cipher t := rfl
@[simp] theorem State.advance_block (s : State) (n : Nat) (t : Word) : (s.advance n).block t = s.block t := rfl

/-! ### Composed updates -/

@[simp] theorem State.load_answer (s : State) (st : Status) (b d : List Byte) : (s.answer st b).load d = s.load d := rfl

@[simp] theorem State.load_load (s : State) (b d : List Byte) : (s.load b).load d = s.load d := rfl

end Sys2Proof.Machine
end

