-- ==== Sys2Proof/Laws/Datapath.lean ====
section
/-! SUPPORT. What the datapaths leave behind, said once: the hidden registers after a block or a batch, and the lengths and
the splitting of keystream. -/

namespace Sys2Proof.Machine

/-! ### The sequencer's 20 rounds -/

/-- A block computation runs the column and the diagonal round ten times each on WK, and the sequencer rests. -/
theorem iterate_stepScalar (round : RoundPhase → Words16 → Words16) (h : Hidden) (x : Words16) :
    Nat.iterate (Hidden.stepScalar round) Config.rounds (h.loadScalar x)
      = { h with wk := Nat.iterate (fun w => round .diagonal (round .column w)) 10 x, seq := none } := by
  rfl

/-- A batch runs the column and the diagonal round ten times each on LW, and the sequencer rests. -/
theorem iterate_stepLanes (round : RoundPhase → Vector LaneVec 16 → Vector LaneVec 16) (h : Hidden)
    (lo : Vector LaneVec 16) :
    Nat.iterate (Hidden.stepLanes round) Config.rounds (h.loadLanes lo)
      = { h with
          lw := Nat.iterate (fun v => round .diagonal (round .column v)) 10 lo
          lo := lo
          seq := none } := by
  simp [Config.rounds, Function.iterate_succ_apply, Hidden.loadLanes, firstRound, Hidden.stepLanes, nextRound]

/-- Everything a block computation does to the hidden registers, for any arrangement of a round. -/
theorem runScalar_eq (round : RoundPhase → Words16 → Words16) (raw : Bool) (x : Words16) (h : Hidden) :
    h.runScalar round raw x =
      { h with
        wk := Nat.iterate (fun w => round .diagonal (round .column w)) 10 x
        seq := none
        ser := if raw then (Nat.iterate (fun w => round .diagonal (round .column w)) 10 x).toList
          else (feedForward x (Nat.iterate (fun w => round .diagonal (round .column w)) 10 x)).toList } := by
  simp only [Hidden.runScalar, iterate_stepScalar]

/-- Everything a batch does to the hidden registers. -/
theorem runLanes_eq (lo : Vector LaneVec 16) (h : Hidden) :
    h.runLanes lo =
      { h with
        lw := Nat.iterate (fun v => laneRound .diagonal (laneRound .column v)) 10 lo
        lo := lo
        seq := none
        ser := laneWords (Vector.zipWith vadd
          (Nat.iterate (fun v => laneRound .diagonal (laneRound .column v)) 10 lo) lo) } := by
  simp only [Hidden.runLanes, iterate_stepLanes]

/-- Ten double rounds of the reference datapath are core20. -/
theorem iterate_referenceRound (x : Words16) :
    Nat.iterate (fun w => referenceRound .diagonal (referenceRound .column w)) 10 x = core20 x := rfl

/-- The reference datapath emits the block function of its input. -/
theorem emit_runScalar_reference (x : Words16) (h : Hidden) :
    (h.runScalar referenceRound false x).emit = blockOf x := by
  simp only [Hidden.emit, runScalar_eq, iterate_referenceRound, blockOf, Bool.false_eq_true, if_false]

/-! ### Lanes -/

@[simp] theorem laneView_getElem (v : Vector LaneVec 16) (l : Fin 8) (i : Nat) (h : i < 16) :
    (laneView v l)[i] = v[i][l] := by simp [laneView]

/-- Lane l of the originals is S(t + l). -/
theorem laneView_laneOriginals (s : State) (t : Word) (l : Fin 8) :
    laneView (laneOriginals s t) l = s.cipher (t + BitVec.ofNat 32 l.val) := by
  apply Vector.ext; intro i hi; simp [laneOriginals]

/-- A round of the lane engine, seen in one lane, reads and writes that lane only, and is the concurrent arrangement of
the round there. -/
theorem laneView_laneRound (p : RoundPhase) (v : Vector LaneVec 16) (l : Fin 8) :
    laneView (laneRound p v) l = reducedRound p (laneView v l) := by
  obtain ⟨l, hl⟩ := l
  apply Vector.ext
  intro i hi
  cases p <;>
  (interval_cases i <;>
    simp [laneView, laneRound, reducedRound, phaseQuads, columnQuads, diagonalQuads, applyLaneQuad, readQuad, writeQuad,
      vquarterRound, quarterRound, vadd, vxor, vrotl])

/-! ### Lengths -/

@[simp] theorem length_ser32 (w : Word) : (ser32 w).length = 4 := rfl

@[simp] theorem length_serWords (ws : List Word) : (serWords ws).length = 4 * ws.length := by
  induction ws with
  | nil => rfl
  | cons w ws ih => rw [serWords, List.flatMap_cons, List.length_append, ← serWords, ih, length_ser32, List.length_cons]; omega

theorem length_blockOf (x : Words16) : (blockOf x).length = 64 := by simp [blockOf]

@[simp] theorem length_block (s : State) (t : Word) : (s.block t).length = 64 := length_blockOf _

@[simp] theorem length_blocks (s : State) (t : Word) (n : Nat) : (s.blocks t n).length = 64 * n := by
  simp [State.blocks, List.length_flatMap, Nat.mul_comm]

theorem length_emit_runScalar (round : RoundPhase → Words16 → Words16) (raw : Bool) (x : Words16) (h : Hidden) :
    (h.runScalar round raw x).emit.length = 64 := by
  rw [Hidden.emit, runScalar_eq, length_serWords]
  cases raw <;> simp

theorem length_emit_runLanes (lo : Vector LaneVec 16) (h : Hidden) : (h.runLanes lo).emit.length = 512 := by
  rw [Hidden.emit, runLanes_eq, length_serWords]
  simp [laneWords, List.length_flatMap]

/-! ### Splitting keystream -/

theorem blocks_succ (s : State) (t : Word) (n : Nat) :
    s.blocks t (n + 1) = s.block t ++ s.blocks (t + 1#32) n := by
  have h (i : Nat) : t + BitVec.ofNat 32 (i + 1) = t + 1#32 + BitVec.ofNat 32 i := by
    apply BitVec.eq_of_toNat_eq
    simp [Nat.add_mod]
    omega
  have hf : (fun i : Nat => s.block (t + BitVec.ofNat 32 (i + 1))) = fun i => s.block (t + 1#32 + BitVec.ofNat 32 i) :=
    funext fun i => by rw [h i]
  simp only [State.blocks, List.range_succ_eq_map, List.flatMap_cons, List.flatMap_map, Nat.succ_eq_add_one, hf,
    BitVec.add_zero]

theorem blocks_add (s : State) (t : Word) (m n : Nat) :
    s.blocks t (m + n) = s.blocks t m ++ s.blocks (t + BitVec.ofNat 32 m) n := by
  induction m generalizing t with
  | zero => simp [State.blocks]
  | succ m ih =>
    rw [show m + 1 + n = (m + n) + 1 by omega, blocks_succ, ih, blocks_succ, List.append_assoc]
    congr 3
    apply BitVec.eq_of_toNat_eq
    simp [Nat.add_mod]
    omega

/-- The scalar keystream on the reference datapath is the blocks in counter order. -/
theorem scalarKeystream_reference (s : State) (n : Nat) (t : Word) (h : Hidden) :
    (scalarKeystream referenceRound s n t h).1 = s.blocks t n := by
  induction n generalizing t h with
  | zero => rfl
  | succ n ih => simp only [scalarKeystream, ih, blocks_succ, emit_runScalar_reference, State.block]

end Sys2Proof.Machine
end

