-- ==== Sys2Proof/Laws/Ops.lean ====
section
/-! SUPPORT. One lemma per shared operation of the commands, saying everything it can do: raising, completing, the counter's
update, the counter command, TRANSFORM, and any command at all. -/

namespace Sys2Proof.Machine

/-! ### Raising and completing -/

theorem raise_eq (st : Status) (s : State) : raise st s = .next (s.answer st []) := rfl

theorem complete_eq (rdata : List Byte) (s : State) : complete rdata s = .next (s.answer .ok rdata) := rfl

/-! ### The next-block index -/

@[simp] theorem nbi_answer (s : State) (st : Status) (rdata : List Byte) : (s.answer st rdata).nbi = s.nbi := by
  simp only [State.nbi, State.answer_exh, State.answer_ctr]

@[simp] theorem nbi_load (s : State) (d : List Byte) : (s.load d).nbi = s.nbi := by
  simp only [State.nbi, State.load_exh, State.load_ctr]

/-- NBI is a function of EXH and CTR. -/
theorem nbi_congr {s t : State} (he : s.exh = t.exh) (hc : s.ctr = t.ctr) : s.nbi = t.nbi := by
  simp only [State.nbi, he, hc]

theorem nbi_of_not_exh {s : State} (h : s.exh = false) : s.nbi = s.ctr.toNat := by simp [State.nbi, h, flagNat]

theorem testBit_32 {n : Nat} (h : n ≤ 2 ^ 32) : n.testBit 32 = decide (n = 2 ^ 32) := by
  rcases Nat.lt_or_eq_of_le h with h | rfl
  · rw [Nat.testBit_lt_two_pow h]; simp; omega
  · decide

theorem nbi_setNbi (s : State) {n : Nat} (h : n ≤ 2 ^ 32) : (s.setNbi n).nbi = n := by
  simp only [State.nbi, State.setNbi_exh, State.setNbi_ctr, testBit_32 h, BitVec.toNat_ofNat]
  by_cases hn : n = 2 ^ 32
  · subst hn; decide
  · simp only [hn, decide_false, flagNat, Bool.false_eq_true, if_false]; omega

/-- The update of R184 where no overflow was found: CTR and EXH become the low 32 bits and bit 32 of the sum. -/
theorem advance_eq (s : State) {n : Nat} (h : s.nbi + n ≤ 2 ^ 32) :
    s.advance n = { s with ctr := BitVec.ofNat 32 (s.nbi + n), exh := decide (s.nbi + n = 2 ^ 32) } := by
  simp only [State.advance, State.setNbi, testBit_32 h]

theorem blocksFor_eq_zero {n : Nat} : blocksFor n = 0 ↔ n = 0 := by rw [blocksFor]; omega

/-! ### What SETCTR and TRANSFORM can do -/

theorem setCounter_cases (v : Word) (s : State) :
    s.data.length ≠ 0 ∧ setCounter v s = .next (s.answer .malformedPayload []) ∨
    s.data.length = 0 ∧ s.kv = false ∧ setCounter v s = .next (s.answer .notConstructed []) ∨
    s.data.length = 0 ∧ s.kv = true ∧ setCounter v s = .next ({ s with ctr := v, exh := false }.answer .ok []) := by
  by_cases h1 : s.data.length = 0
  · cases h2 : s.kv <;> simp [setCounter, h1, h2, raise, complete]
  · simp [setCounter, h1, raise]

theorem transform_cases (tier : Tier) (s : State) :
    s.kv = false ∧ transform tier s = .next (s.answer .notConstructed []) ∨
    s.kv = true ∧ s.data = [] ∧ transform tier s = .next (s.answer .ok []) ∨
    s.kv = true ∧ s.data ≠ [] ∧ 2 ^ 32 < s.nbi + blocksFor s.data.length ∧
      transform tier s = .next (s.answer .counterOverflow []) ∨
    s.kv = true ∧ s.data ≠ [] ∧ s.nbi + blocksFor s.data.length ≤ 2 ^ 32 ∧
      transform tier s = .next (State.answer { s.advance (blocksFor s.data.length) with
        hidden := (transformKeystream tier s s.data).2 } .ok (transformBytes tier s s.data)) := by
  by_cases h1 : s.kv = false
  · exact .inl ⟨h1, by rw [transform, if_pos h1, raise_eq]⟩
  have hk : s.kv = true := by simpa using h1
  by_cases h2 : blocksFor s.data.length = 0
  · have h2' : s.data = [] := List.length_eq_zero_iff.1 (blocksFor_eq_zero.1 h2)
    exact .inr (.inl ⟨hk, h2', by rw [transform, if_neg h1, if_pos h2, complete_eq]⟩)
  have h2' : s.data ≠ [] := fun h => h2 (by rw [h]; rfl)
  by_cases h3 : s.nbi + blocksFor s.data.length > 2 ^ 32
  · exact .inr (.inr (.inl ⟨hk, h2', h3, by rw [transform, if_neg h1, if_neg h2, if_pos h3, raise_eq]⟩))
  · exact .inr (.inr (.inr ⟨hk, h2', Nat.not_lt.1 h3,
      by rw [transform, if_neg h1, if_neg h2, if_neg h3, complete_eq]⟩))

/-- A command with a tier is TRANSFORM at that tier. -/
theorem exec_of_transformTier {i : Instr} {tier : Tier} (h : transformTier i = some tier) (s : State) :
    exec i s = transform tier s := by
  cases i <;> simp [transformTier] at h <;> subst h <;> rfl

/-! ### Any command -/

/-- What a command can do: it answers; where it raises, nothing else happens; and it writes at most the registers of R38
and the hidden registers. -/
def Answers (s : State) (o : Host.Outcome State Fault Refusal) : Prop :=
  ∃ (u : State) (st : Status) (b : List Byte), o = .next (u.answer st b) ∧ (st ≠ .ok → b = [] ∧ u = s) ∧
    u = { s with kv := u.kv, exh := u.exh, key := u.key, nonce := u.nonce, ctr := u.ctr, hidden := u.hidden }

theorem answers_raise (st : Status) (s : State) : Answers s (raise st s) := ⟨s, st, [], rfl, fun _ => ⟨rfl, rfl⟩, rfl⟩

theorem answers_complete {s u : State} (b : List Byte)
    (h : u = { s with kv := u.kv, exh := u.exh, key := u.key, nonce := u.nonce, ctr := u.ctr, hidden := u.hidden }) :
    Answers s (complete b u) :=
  ⟨u, .ok, b, rfl, fun h => absurd rfl h, h⟩

theorem exec_answers (i : Instr) (s : State) : Answers s (exec i s) := by
  cases i <;> simp only [exec, execConstruct, execSetctr, execSeek, setCounter, execGetctr, execRotl, execQround,
    execBlockfn, execKsblock, execKsbatch, execTransformRef, execTransformRo, execTransformVec, execEncrypt, execDecrypt,
    transform] <;> split_ifs <;>
    first
    | with_reducible exact answers_raise _ _
    | ((with_reducible apply answers_complete); rfl)

theorem execute_answers (cmd imm : Word) (s : State) : Answers s (execute cmd imm s) := by
  unfold execute
  split
  · exact exec_answers _ s
  · exact answers_raise _ s

end Sys2Proof.Machine
end

