-- ==== Sys2Proof/Laws/Checks.lean ====
section
/-! SUPPORT. The check tables: what the first failing check depends on, what it says of the checks before it, and its closed
form for each command. -/

namespace Sys2Proof.Machine

/-! ### The checks look at KV and NBI only -/

theorem Check.fails_congr (c : Check) (i : Instr) (n : Nat) {s t : State} (hk : s.kv = t.kv) (hn : s.nbi = t.nbi) :
    c.fails i n s = c.fails i n t := by
  cases c <;> simp only [Check.fails, wouldOverflow, hk, hn]

theorem firstOf_congr (l : List Check) (i : Instr) (n : Nat) {s t : State} (hk : s.kv = t.kv) (hn : s.nbi = t.nbi) :
    firstOf i n s l = firstOf i n t l := by
  induction l with
  | nil => rfl
  | cons c l ih => rw [firstOf, firstOf, ih, Check.fails_congr c i n hk hn]

theorem firstFailing_congr (i : Instr) (n : Nat) {s t : State} (hk : s.kv = t.kv) (hn : s.nbi = t.nbi) :
    firstFailing i n s = firstFailing i n t := firstOf_congr _ i n hk hn

theorem requestStatus_congr (cmd imm : Word) (n : Nat) {s t : State} (hk : s.kv = t.kv) (hn : s.nbi = t.nbi) :
    requestStatus cmd imm n s = requestStatus cmd imm n t := by
  unfold requestStatus
  split <;> simp only [firstFailing_congr _ n hk hn]

theorem requestRspLen_congr (cmd imm : Word) (n : Nat) {s t : State} (hk : s.kv = t.kv) (hn : s.nbi = t.nbi) :
    requestRspLen cmd imm n s = requestRspLen cmd imm n t := by
  unfold requestRspLen
  split <;> simp only [firstFailing_congr _ n hk hn]

/-- rsp_len depends on the request, KV, NBI and a response that is there. -/
theorem rspLen_congr {p q : Transfer} {s t : State} (hc : p.cmd = q.cmd) (hi : p.imm = q.imm) (hl : p.len = q.len)
    (hk : s.kv = t.kv) (hn : s.nbi = t.nbi) (hr : s.rsp = t.rsp) : s.rspLen p = t.rspLen q := by
  unfold State.rspLen
  rw [hr, hc, hi, hl]
  split
  · rfl
  · exact requestRspLen_congr _ _ _ hk hn

/-- rsp_status depends on the request, KV, NBI and a response that is there. -/
theorem rspStatus_congr {p q : Transfer} {s t : State} (hc : p.cmd = q.cmd) (hi : p.imm = q.imm) (hl : p.len = q.len)
    (hk : s.kv = t.kv) (hn : s.nbi = t.nbi) (hr : s.rsp = t.rsp) : s.rspStatus p = t.rspStatus q := by
  unfold State.rspStatus
  rw [hr, hc, hi, hl]
  split
  · rfl
  · exact requestStatus_congr _ _ _ hk hn

/-! ### The first that fails -/

/-- A status other than OK is that of a check of the list that fails, and every check before it passes. -/
theorem firstOf_split {i : Instr} {n : Nat} {s : State} {st : Status} (hst : st ≠ .ok) :
    ∀ {l : List Check}, firstOf i n s l = st →
      ∃ pre c post, l = pre ++ c :: post ∧ (∀ p ∈ pre, p.fails i n s = false) ∧ c.fails i n s = true ∧ c.status = st
  | [], h => absurd h.symm hst
  | c :: l, h => by
    rw [firstOf] at h
    by_cases hc : c.fails i n s = true
    · exact ⟨[], c, l, rfl, by simp, hc, by simpa [hc] using h⟩
    · obtain ⟨pre, d, post, h1, h2, h3, h4⟩ := firstOf_split hst (l := l) (by simpa [hc] using h)
      exact ⟨c :: pre, d, post, by rw [h1]; rfl, by simp [hc]; exact h2, h3, h4⟩

/-- The status is OK exactly when every check passes. -/
theorem firstOf_eq_ok {i : Instr} {n : Nat} {s : State} {l : List Check} :
    firstOf i n s l = .ok ↔ ∀ c ∈ l, c.fails i n s = false := by
  induction l with
  | nil => simp [firstOf]
  | cons c l ih =>
    rw [firstOf]
    by_cases hc : c.fails i n s = true
    · have : c.status ≠ .ok := by cases c <;> decide
      simp [hc, this]
    · simp [hc, ih]

/-! ### Closed forms -/

theorem firstFailing_construct (k n : BitVec 8) (len : Nat) (s : State) :
    firstFailing (.construct k n) len s =
      if len ≠ k.toNat + n.toNat then .malformedPayload
      else if k.toNat ≠ Config.keyBytes then .invalidKeySize
      else if n.toNat ≠ Config.nonceBytes then .invalidNonceSize else .ok := by
  simp [firstFailing, checksOf, firstOf, Check.fails, Instr.wellFormed, lengthWrong, requiredLen, Check.status,
    keyLengthWrong, nonceLengthWrong, constructLens]

theorem firstFailing_counter {i : Instr} (hi : i = .getctr ∨ ∃ v, i = .setctr v ∨ i = .seek v) (len : Nat) (s : State) :
    firstFailing i len s =
      if len ≠ 0 then .malformedPayload else if s.kv = false then .notConstructed else .ok := by
  rcases hi with rfl | ⟨v, rfl | rfl⟩ <;>
  simp [firstFailing, checksOf, firstOf, Check.fails, Instr.wellFormed, lengthWrong, requiredLen, Check.status]

theorem firstFailing_rotl (x : Word) (n : BitVec 5) (len : Nat) (s : State) :
    firstFailing (.rotl x n) len s =
      if n = 0#5 then .illegalCommand else if len ≠ 0 then .malformedPayload else .ok := by
  simp [firstFailing, checksOf, firstOf, Check.fails, Instr.wellFormed, lengthWrong, requiredLen, Check.status]

theorem firstFailing_qround (len : Nat) (s : State) :
    firstFailing .qround len s = if len ≠ 16 then .malformedPayload else .ok := by
  simp [firstFailing, checksOf, firstOf, Check.fails, Instr.wellFormed, lengthWrong, requiredLen, Check.status]

theorem firstFailing_blockfn (raw : Bool) (len : Nat) (s : State) :
    firstFailing (.blockfn raw) len s = if len ≠ 64 then .malformedPayload else .ok := by
  simp [firstFailing, checksOf, firstOf, Check.fails, Instr.wellFormed, lengthWrong, requiredLen, Check.status]

theorem firstFailing_ksblock (len : Nat) (s : State) :
    firstFailing .ksblock len s =
      if len ≠ 0 then .malformedPayload
      else if s.kv = false then .notConstructed
      else if s.exh = true then .counterOverflow else .ok := by
  have hlt := s.ctr.isLt
  have : (2 ^ 32 < s.nbi + 1) ↔ s.exh = true := by
    rw [State.nbi]
    cases s.exh
    · simp [flagNat]; omega
    · simp [flagNat]
  simp at this
  simp [firstFailing, checksOf, firstOf, Check.fails, Instr.wellFormed, lengthWrong, requiredLen, Check.status,
    wouldOverflow, blocksNeeded, this]

theorem firstFailing_ksbatch (len : Nat) (s : State) :
    firstFailing .ksbatch len s =
      if len ≠ 0 then .malformedPayload
      else if s.kv = false then .notConstructed
      else if s.exh = true ∨ s.ctr > 0xFFFFFFF8#32 then .counterOverflow else .ok := by
  have hlt := s.ctr.isLt
  have : (2 ^ 32 < s.nbi + 8) ↔ (s.exh = true ∨ s.ctr > 0xFFFFFFF8#32) := by
    rw [State.nbi, gt_iff_lt, BitVec.lt_def]; cases s.exh <;> (simp [flagNat]; omega)
  simp at this
  simp [firstFailing, checksOf, firstOf, Check.fails, Instr.wellFormed, lengthWrong, requiredLen, Check.status,
    wouldOverflow, blocksNeeded, this]

theorem firstFailing_transform {i : Instr} {tier : Tier} (hi : transformTier i = some tier) (len : Nat) (s : State) :
    firstFailing i len s =
      if s.kv = false then .notConstructed
      else if 1 ≤ blocksFor len ∧ s.nbi + blocksFor len > 2 ^ 32 then .counterOverflow else .ok := by
  cases i <;> simp [transformTier] at hi <;>
  simp [firstFailing, checksOf, firstOf, Check.fails, Instr.wellFormed, wouldOverflow, blocksNeeded, Check.status]

end Sys2Proof.Machine
end

