-- ==== Sys2Proof/Laws/Port.lean ====
section
/-! SUPPORT. What a step, an atomic command and each transfer at the port can do when they have a next state. -/

namespace Sys2Proof.Machine

theorem step_next {s t : State} (h : step s = .next t) :
    s.inbox = [] ∧ t = s ∨
    ∃ (e : HostEvent) (rest : List HostEvent), s.inbox = e :: rest ∧ handle e { s with inbox := rest } = .next t := by
  unfold step at h
  split at h
  · rename_i hi; cases h; exact .inl ⟨hi, rfl⟩
  · rename_i e rest hi; exact .inr ⟨e, rest, hi, h⟩

theorem transact_next {r : Request} {s t : State} (h : transact r s = .next t) :
    s.port = .idle ∧ r.data.length < 2 ^ 40 ∧
    ∃ u : State, execute r.cmd r.imm (s.load r.data) = .next u ∧ t = u.deliver := by
  unfold transact at h
  split at h
  · cases h
  rename_i hp
  split at h
  · rename_i hl
    refine ⟨hp, hl, ?_⟩
    split at h <;> cases h
    exact ⟨_, by assumption, rfl⟩
  · cases h

theorem runWhenFed_next {t : Transfer} {s u : State} (h : State.runWhenFed t s = .next u) :
    s.data.length ≠ t.len.toNat ∧ u = s ∨ s.data.length = t.len.toNat ∧ execute t.cmd t.imm s = .next u := by
  unfold State.runWhenFed at h
  split at h
  · exact .inr ⟨by assumption, h⟩
  · cases h; exact .inl ⟨by assumption, rfl⟩

theorem settle_cases (t : Transfer) (s : State) :
    (∃ r, s.rsp = some r ∧ t.statusSent = true ∧ t.sent = r.rdata.length) ∧ s.settle t = s.deliver ∨
    (∀ r, s.rsp = some r → ¬(t.statusSent = true ∧ t.sent = r.rdata.length)) ∧ s.settle t = s := by
  unfold State.settle
  split
  · rename_i r hr
    split
    · rename_i hd; exact .inl ⟨⟨r, hr, hd⟩, rfl⟩
    · rename_i hd
      exact .inr ⟨fun r' h' => by rw [hr] at h'; cases h'; exact hd, rfl⟩
  · rename_i hr
    exact .inr ⟨fun r' h' => (by rw [hr] at h'; cases h'), rfl⟩

theorem requestTransfer_next {cmd imm : Word} {len : BitVec 40} {s t : State}
    (h : requestTransfer cmd imm len s = .next t) :
    s.port = .idle ∧
    State.runWhenFed { cmd := cmd, imm := imm, len := len, statusSent := false, sent := 0 }
      { s.load [] with port := .busy { cmd := cmd, imm := imm, len := len, statusSent := false, sent := 0 } }
      = .next t := by
  unfold requestTransfer at h
  split at h
  · cases h
  · exact ⟨by assumption, h⟩

theorem payloadTransfer_next {b : Byte} {s u : State} (h : payloadTransfer b s = .next u) :
    ∃ (t : Transfer) (v : State), s.port = .busy t ∧ s.data.length < t.len.toNat ∧
      State.runWhenFed t { s with data := s.data ++ [b] } = .next v ∧ u = v.settle t := by
  unfold payloadTransfer at h
  split at h
  · cases h
  rename_i t hp
  split at h
  · rename_i hd
    simp only [State.dinReady, hp, decide_eq_true_eq] at hd
    split at h <;> cases h
    exact ⟨t, _, hp, hd, by assumption, rfl⟩
  · cases h

theorem responseTransfer_next {s u : State} (h : responseTransfer s = .next u) :
    ∃ t : Transfer, s.port = .busy t ∧ t.statusSent = false ∧
      u = State.settle { t with statusSent := true } { s with port := .busy { t with statusSent := true } } := by
  unfold responseTransfer at h
  split at h
  · cases h
  rename_i t hp
  split at h
  · rename_i hd
    simp only [State.rspValid, hp, Bool.not_eq_true'] at hd
    cases h; exact ⟨t, hp, hd, rfl⟩
  · cases h

theorem byteTransfer_next {s u : State} (h : byteTransfer s = .next u) :
    ∃ t : Transfer, s.port = .busy t ∧ t.statusSent = true ∧ t.sent < s.rspLen t ∧ t.sent < (s.rdataSoFar t).length ∧
      u = State.settle { t with sent := t.sent + 1 } { s with port := .busy { t with sent := t.sent + 1 } } := by
  unfold byteTransfer at h
  split at h
  · cases h
  rename_i t hp
  split at h
  · rename_i hd
    simp only [State.doutValid, hp, Bool.and_eq_true, decide_eq_true_eq] at hd
    cases h; exact ⟨t, hp, hd.1.1, hd.1.2, hd.2, rfl⟩
  · cases h

/-! ### And in the other direction: when each has a next state, and which -/

theorem step_cons {s : State} {e : HostEvent} {rest : List HostEvent} (h : s.inbox = e :: rest) :
    step s = handle e { s with inbox := rest } := by
  unfold step; rw [h]

theorem settle_unsent (t : Transfer) (s : State) (h : t.statusSent = false) : s.settle t = s := by
  rcases settle_cases t s with ⟨⟨r, _, h1, _⟩, -⟩ | ⟨-, h⟩
  · rw [h] at h1; cases h1
  · exact h

theorem payloadTransfer_of {b : Byte} {s u : State} {t : Transfer} (hp : s.port = .busy t)
    (hd : s.data.length < t.len.toNat) (hu : State.runWhenFed t { s with data := s.data ++ [b] } = .next u) :
    payloadTransfer b s = .next (u.settle t) := by
  have hr : s.dinReady = true := by simp only [State.dinReady, hp, decide_eq_true_eq]; exact hd
  simp only [hp] at hu
  unfold payloadTransfer
  simp only [hp, hr, if_true, hu]

theorem responseTransfer_of {s : State} {t : Transfer} (hp : s.port = .busy t) (hd : t.statusSent = false) :
    responseTransfer s =
      .next (State.settle { t with statusSent := true } { s with port := .busy { t with statusSent := true } }) := by
  have hr : s.rspValid = true := by simp only [State.rspValid, hp, hd]; rfl
  unfold responseTransfer
  simp only [hp, hr, if_true]

theorem byteTransfer_of {s : State} {t : Transfer} (hp : s.port = .busy t) (hd : t.statusSent = true)
    (hl : t.sent < s.rspLen t) (hk : t.sent < (s.rdataSoFar t).length) :
    byteTransfer s =
      .next (State.settle { t with sent := t.sent + 1 } { s with port := .busy { t with sent := t.sent + 1 } }) := by
  have hr : s.doutValid = true := by
    simp only [State.doutValid, hp, hd, Bool.true_and, Bool.and_eq_true, decide_eq_true_eq]; exact ⟨hl, hk⟩
  unfold byteTransfer
  simp only [hp, hr, if_true]

/-- Steps in sequence. -/
theorem runSteps_add {m n : Nat} {s u : State} (h : runSteps m s = .next u) : runSteps (m + n) s = runSteps n u := by
  induction m generalizing s with
  | zero => cases h; rw [Nat.zero_add]
  | succ m ih =>
    rw [show m + 1 + n = (m + n) + 1 by omega, runSteps]
    rw [runSteps] at h
    split at h <;> try cases h
    exact ih h

end Sys2Proof.Machine
end

