-- ==== Sys2Proof/Laws/Around.lean ====
section
/-! SUPPORT. What a command does not look at: the keystream depends on KEY, NONCE, NBI and the hidden registers it starts
from, and no command looks at the port, the host's side or the numbering of the free values. -/

namespace Sys2Proof.Machine

theorem scalarKeystream_congr (round : RoundPhase → Words16 → Words16) {s t : State} (hk : s.key = t.key)
    (hn : s.nonce = t.nonce) (n : Nat) (c : Word) (h : Hidden) :
    scalarKeystream round s n c h = scalarKeystream round t n c h := by
  induction n generalizing c h with
  | zero => rfl
  | succ n ih => simp only [scalarKeystream, State.cipher, hk, hn, ih]

theorem laneOriginals_congr {s t : State} (hk : s.key = t.key) (hn : s.nonce = t.nonce) (c : Word) :
    laneOriginals s c = laneOriginals t c := by
  simp only [laneOriginals, State.cipher, hk, hn]

theorem laneKeystream_congr {s t : State} (hk : s.key = t.key) (hn : s.nonce = t.nonce)
    (n : Nat) (c : Word) (h : Hidden) : laneKeystream s n c h = laneKeystream t n c h := by
  induction n generalizing c h with
  | zero => rfl
  | succ n ih => simp only [laneKeystream, laneOriginals_congr hk hn, ih]

theorem transformKeystream_congr (tier : Tier) {s t : State} (hk : s.key = t.key) (hn : s.nonce = t.nonce)
    (hb : s.nbi = t.nbi) (hh : s.hidden = t.hidden) (d : List Byte) :
    transformKeystream tier s d = transformKeystream tier t d := by
  cases tier <;>
    simp only [transformKeystream, tierKeystream, hb, hh, scalarKeystream_congr _ hk hn, laneKeystream_congr hk hn]

/-- A state with another port, other actions to come and responses behind, and another numbering of the free values. -/
def State.around (s : State) (p : Port) (q : List HostEvent) (o : List Response) (n : Nat) : State :=
  { s with port := p, inbox := q, outbox := o, freeCount := n }

/-- No command looks at the port, the host's side or the numbering of the free values, and each leaves them. -/
theorem exec_around (i : Instr) (s : State) (p : Port) (q : List HostEvent) (o : List Response) (n : Nat) :
    ∃ u, exec i s = .next u ∧ exec i (s.around p q o n) = .next (u.around p q o n) := by
  have hn : (s.around p q o n).nbi = s.nbi := nbi_congr rfl rfl
  have ht (tier : Tier) : ∃ u, transform tier s = .next u ∧
      transform tier (s.around p q o n) = .next (u.around p q o n) := by
    have hks := transformKeystream_congr tier (s := s.around p q o n) (t := s) rfl rfl hn rfl s.data
    simp only [transform, hn, transformBytes, State.advance]
    show ∃ u, _ ∧ (if s.kv = false then _ else if blocksFor s.data.length = 0 then _
      else if s.nbi + blocksFor s.data.length > 2 ^ 32 then _
      else complete (xorBytes s.data (transformKeystream tier (s.around p q o n) s.data).1)
        { (s.around p q o n).setNbi (s.nbi + blocksFor s.data.length) with
          hidden := (transformKeystream tier (s.around p q o n) s.data).2 }) = _
    rw [hks]
    split_ifs <;> exact ⟨_, rfl, rfl⟩
  cases i with
  | transformRef => exact ht _
  | transformRo => exact ht _
  | transformVec => exact ht _
  | encrypt t => exact ht _
  | decrypt t => exact ht _
  | construct k m =>
    simp only [exec, execConstruct]
    rw [show (s.around p q o n).data = s.data from rfl]
    split_ifs <;> exact ⟨_, rfl, rfl⟩
  | setctr v =>
    simp only [exec, execSetctr, setCounter]
    rw [show (s.around p q o n).data = s.data from rfl, show (s.around p q o n).kv = s.kv from rfl]
    split_ifs <;> exact ⟨_, rfl, rfl⟩
  | seek v =>
    simp only [exec, execSeek, setCounter]
    rw [show (s.around p q o n).data = s.data from rfl, show (s.around p q o n).kv = s.kv from rfl]
    split_ifs <;> exact ⟨_, rfl, rfl⟩
  | getctr =>
    simp only [exec, execGetctr]
    rw [show (s.around p q o n).data = s.data from rfl, show (s.around p q o n).kv = s.kv from rfl]
    split_ifs <;> exact ⟨_, rfl, rfl⟩
  | rotl x m =>
    simp only [exec, execRotl]
    rw [show (s.around p q o n).data = s.data from rfl]
    split_ifs <;> exact ⟨_, rfl, rfl⟩
  | qround =>
    simp only [exec, execQround]
    rw [show (s.around p q o n).data = s.data from rfl]
    split_ifs <;> exact ⟨_, rfl, rfl⟩
  | blockfn raw =>
    simp only [exec, execBlockfn]
    rw [show (s.around p q o n).data = s.data from rfl]
    split_ifs <;> exact ⟨_, rfl, rfl⟩
  | ksblock =>
    simp only [exec, execKsblock, State.advance, hn]
    rw [show (s.around p q o n).data = s.data from rfl, show (s.around p q o n).kv = s.kv from rfl,
      show (s.around p q o n).exh = s.exh from rfl]
    split_ifs <;> exact ⟨_, rfl, rfl⟩
  | ksbatch =>
    simp only [exec, execKsbatch, State.advance, hn]
    rw [show (s.around p q o n).data = s.data from rfl, show (s.around p q o n).kv = s.kv from rfl,
      show (s.around p q o n).exh = s.exh from rfl, show (s.around p q o n).ctr = s.ctr from rfl,
      laneOriginals_congr (s := s.around p q o n) (t := s) rfl rfl]
    split_ifs <;> exact ⟨_, rfl, rfl⟩

theorem execute_around (c m : Word) (s : State) (p : Port) (q : List HostEvent) (o : List Response) (n : Nat) :
    ∃ u, execute c m s = .next u ∧ execute c m (s.around p q o n) = .next (u.around p q o n) := by
  unfold execute
  split
  · exact exec_around ..
  · exact ⟨_, rfl, rfl⟩

/-! ### The port's outputs -/

theorem transformBytes_congr (tier : Tier) {s t : State} (hk : s.key = t.key) (hn : s.nonce = t.nonce)
    (hb : s.nbi = t.nbi) (hh : s.hidden = t.hidden) (d : List Byte) :
    transformBytes tier s d = transformBytes tier t d := by
  simp only [transformBytes, transformKeystream_congr tier hk hn hb hh]

/-- The response bytes known so far depend on the request, the registers, DATA and a response that is there. -/
theorem rdataSoFar_congr {p q : Transfer} {s t : State} (hc : p.cmd = q.cmd) (hi : p.imm = q.imm) (hl : p.len = q.len)
    (hv : s.kv = t.kv) (hk : s.key = t.key) (hn : s.nonce = t.nonce) (hb : s.nbi = t.nbi) (hh : s.hidden = t.hidden)
    (hd : s.data = t.data) (hr : s.rsp = t.rsp) : s.rdataSoFar p = t.rdataSoFar q := by
  unfold State.rdataSoFar
  rw [hr, hc, hi, hl, hd]
  simp only [firstFailing_congr _ _ hv hb, transformBytes_congr _ hk hn hb hh]

@[simp] theorem rspStatus_inbox (s : State) (q : List HostEvent) (p : Transfer) :
    State.rspStatus { s with inbox := q } p = s.rspStatus p := rspStatus_congr rfl rfl rfl rfl (nbi_congr rfl rfl) rfl

@[simp] theorem rspLen_inbox (s : State) (q : List HostEvent) (p : Transfer) :
    State.rspLen { s with inbox := q } p = s.rspLen p := rspLen_congr rfl rfl rfl rfl (nbi_congr rfl rfl) rfl

@[simp] theorem rdataSoFar_inbox (s : State) (q : List HostEvent) (p : Transfer) :
    State.rdataSoFar { s with inbox := q } p = s.rdataSoFar p :=
  rdataSoFar_congr rfl rfl rfl rfl rfl rfl (nbi_congr rfl rfl) rfl rfl rfl

@[simp] theorem doutValid_inbox (s : State) (q : List HostEvent) :
    State.doutValid { s with inbox := q } = s.doutValid := by
  simp only [State.doutValid, rspLen_inbox, rdataSoFar_inbox]

/-- Whether an action is allowed does not depend on the actions to come. -/
@[simp] theorem allows_inbox (s : State) (q : List HostEvent) (e : HostEvent) :
    State.allows { s with inbox := q } e = s.allows e := by
  cases e <;> simp only [State.allows, State.reqReady, State.dinReady, State.rspValid, doutValid_inbox]

/-! ### Executing always answers -/

theorem execute_next (cmd imm : Word) (s : State) : ∃ u : State, execute cmd imm s = .next u := by
  obtain ⟨u, st, b, h, _⟩ := execute_answers cmd imm s; exact ⟨_, h⟩

theorem runWhenFed_total (t : Transfer) (s : State) : ∃ u : State, State.runWhenFed t s = .next u := by
  unfold State.runWhenFed
  split
  · exact execute_next ..
  · exact ⟨_, rfl⟩

end Sys2Proof.Machine
end

