-- ==== Sys2Proof/Laws/Encoding.lean ====
section
/-! SUPPORT. For each format of 30_encoding.md R81: a word has these fields and a clear reserved field exactly when it is
the word the encoder builds from them. -/

namespace Sys2Proof

theorem formatZ_iff (c : Word) (o : BitVec 8) : (opcField c = o ∧ reservedZ c = 0#24) ↔ c = formatZ o := by
  constructor
  · rintro ⟨rfl, h⟩
    apply BitVec.eq_of_getLsbD_eq; intro i hi
    have b := congrArg (fun x => BitVec.getLsbD x i) h
    simp [opcField, reservedZ, formatZ] at *
    grind
  · rintro rfl
    constructor <;> (apply BitVec.eq_of_getLsbD_eq; intro i hi; simp [opcField, reservedZ, formatZ]; grind)

theorem formatC_iff (c : Word) (o k n : BitVec 8) :
    (opcField c = o ∧ reservedC c = 0#8 ∧ klenField c = k ∧ nlenField c = n) ↔ c = formatC o k n := by
  constructor
  · rintro ⟨rfl, h, rfl, rfl⟩
    apply BitVec.eq_of_getLsbD_eq; intro i hi
    have b := congrArg (fun x => BitVec.getLsbD x (i - 16)) h
    simp [opcField, reservedC, formatC, klenField, nlenField] at *
    grind
  · rintro rfl
    refine ⟨?_, ?_, ?_, ?_⟩ <;>
      (apply BitVec.eq_of_getLsbD_eq; intro i hi; simp [opcField, reservedC, formatC, klenField, nlenField]; grind)

theorem formatR_iff (c : Word) (o : BitVec 8) (n : BitVec 5) :
    (opcField c = o ∧ reservedR c = 0#19 ∧ nField c = n) ↔ c = formatR o n := by
  constructor
  · rintro ⟨rfl, h, rfl⟩
    apply BitVec.eq_of_getLsbD_eq; intro i hi
    have b := congrArg (fun x => BitVec.getLsbD x (i - 5)) h
    simp [opcField, reservedR, formatR, nField] at *
    grind
  · rintro rfl
    refine ⟨?_, ?_, ?_⟩ <;>
      (apply BitVec.eq_of_getLsbD_eq; intro i hi; simp [opcField, reservedR, formatR, nField]; grind)

theorem formatF_iff (c : Word) (o : BitVec 8) (r : BitVec 1) :
    (opcField c = o ∧ reservedF c = 0#23 ∧ rawField c = r) ↔ c = formatF o r := by
  constructor
  · rintro ⟨rfl, h, rfl⟩
    apply BitVec.eq_of_getLsbD_eq; intro i hi
    have b := congrArg (fun x => BitVec.getLsbD x (i - 1)) h
    simp [opcField, reservedF, formatF, rawField] at *
    grind
  · rintro rfl
    refine ⟨?_, ?_, ?_⟩ <;>
      (apply BitVec.eq_of_getLsbD_eq; intro i hi; simp [opcField, reservedF, formatF, rawField]; grind)

theorem formatT_iff (c : Word) (o : BitVec 8) (t : BitVec 4) :
    (opcField c = o ∧ reservedT c = 0#20 ∧ tierField c = t) ↔ c = formatT o t := by
  constructor
  · rintro ⟨rfl, h, rfl⟩
    apply BitVec.eq_of_getLsbD_eq; intro i hi
    have b := congrArg (fun x => BitVec.getLsbD x i) h
    simp [opcField, reservedT, formatT, tierField] at *
    grind
  · rintro rfl
    refine ⟨?_, ?_, ?_⟩ <;>
      (apply BitVec.eq_of_getLsbD_eq; intro i hi; simp [opcField, reservedT, formatT, tierField]; grind)

/-- The tiers are the TIER values 0 to 2 (R86). -/
theorem tierOfField_some (f : BitVec 4) (t : Tier) : tierOfField f = some t ↔ f = t.field := by
  revert f; cases t <;> decide

end Sys2Proof
end

