-- ==== Sys2Proof/Laws/PerInstr.lean ====
section
/-! SUPPORT. The per-command family RoundTrip: decoding the words of a well-formed command gives the command, a second name
giving its core command (30_encoding.md R84, R91, R94). -/

namespace Sys2Proof.Laws.RoundTrip

/-- The words of `i` decode to the core command of `i`. -/
def Statement (i : Instr) : Prop := i.wellFormed = true → decode (encode i).1 (encode i).2 = .ok i.canonical

theorem construct (k n : BitVec 8) : Statement (.construct k n) := by
  intro _
  obtain ⟨h1, h2, h3, h4⟩ := (formatC_iff _ 0x01#8 k n).2 rfl
  simp [encode, decode, h1, decodeC, h2, h3, h4, Instr.canonical]

theorem setctr (v : Word) : Statement (.setctr v) := by
  intro _
  obtain ⟨h1, h2⟩ := (formatZ_iff _ 0x02#8).2 rfl
  simp [encode, decode, h1, decodeSetctr, h2, Instr.canonical]

theorem getctr : Statement .getctr := fun _ => rfl

theorem rotl (x : Word) (n : BitVec 5) : Statement (.rotl x n) := by
  intro h
  obtain ⟨h1, h2, h3⟩ := (formatR_iff _ 0x10#8 n).2 rfl
  simp [Instr.wellFormed] at h
  simp [encode, decode, h1, decodeR, h2, h3, Instr.canonical, h]

theorem qround : Statement .qround := fun _ => rfl
theorem blockfn (raw : Bool) : Statement (.blockfn raw) := fun _ => by cases raw <;> rfl
theorem ksblock : Statement .ksblock := fun _ => rfl
theorem ksbatch : Statement .ksbatch := fun _ => rfl
theorem transformRef : Statement .transformRef := fun _ => rfl
theorem transformRo : Statement .transformRo := fun _ => rfl
theorem transformVec : Statement .transformVec := fun _ => rfl
theorem encrypt (t : Tier) : Statement (.encrypt t) := fun _ => by cases t <;> rfl
theorem decrypt (t : Tier) : Statement (.decrypt t) := fun _ => by cases t <;> rfl
theorem seek (v : Word) : Statement (.seek v) := fun h => setctr v h

end Sys2Proof.Laws.RoundTrip
end

