-- ==== Sys2Proof/Tests/Slice0.lean ====
section
/-! SUPPORT. Tests on fixed values, and for every obligation with hypotheses a witness that meets them. The expected
results of section 3 are the vectors of 95_test_vectors.md, named in each test's docstring. -/

namespace Sys2Proof.Tests

open Sys2Proof.Machine

/-! ## 1. Well-formedness and decoding -/

/-- R87(e): the only operand the types admit and no encoding has. -/
theorem test_rotl_by_zero_ill_formed : (Instr.rotl 0x12345678#32 0#5).wellFormed = false := by decide

theorem test_rotl_by_31_well_formed : (Instr.rotl 0#32 31#5).wellFormed = true := by decide

/-! One word of every command, written out from the opcode map of R84. -/

theorem test_decode_construct : decode 0x0100200C#32 0#32 = .ok (.construct 32#8 12#8) := by decide
theorem test_decode_setctr : decode 0x02000000#32 0xFFFFFFFF#32 = .ok (.setctr 0xFFFFFFFF#32) := by decide
theorem test_decode_getctr : decode 0x03000000#32 0#32 = .ok (.getctr) := by decide
theorem test_decode_rotl : decode 0x1000001F#32 0x80000000#32 = .ok (.rotl 0x80000000#32 31#5) := by decide
theorem test_decode_qround : decode 0x11000000#32 0#32 = .ok (.qround) := by decide
theorem test_decode_blockfn : decode 0x12000000#32 0#32 = .ok (.blockfn false) := by decide
theorem test_decode_blockfn_raw : decode 0x12000001#32 0#32 = .ok (.blockfn true) := by decide
theorem test_decode_ksblock : decode 0x20000000#32 0#32 = .ok (.ksblock) := by decide
theorem test_decode_ksbatch : decode 0x21000000#32 0#32 = .ok (.ksbatch) := by decide
theorem test_decode_transform_ref : decode 0x30000000#32 0#32 = .ok (.transformRef) := by decide
theorem test_decode_transform_ro : decode 0x30100000#32 0#32 = .ok (.transformRo) := by decide
theorem test_decode_transform_vec : decode 0x30200000#32 0#32 = .ok (.transformVec) := by decide

/-! The words of the second names (R94) are those of their core commands. -/

theorem test_encode_encrypt : encode (.encrypt .reduced) = (0x30100000#32, 0#32) := by decide
theorem test_encode_decrypt : encode (.decrypt .vectorized) = (0x30200000#32, 0#32) := by decide
theorem test_encode_seek : encode (.seek 7#32) = (0x02000000#32, 7#32) := by decide
theorem test_encode_construct_fields : encode (.construct 0xAB#8 0xCD#8) = (0x0100ABCD#32, 0#32) := by decide

/-! A word pair for each clause of R87. -/

theorem test_reject_all_zero_word : decode 0#32 0#32 = .error .unassignedOpcode := by decide
theorem test_reject_reserved_of_setctr : decode 0x02000001#32 5#32 = .error .reservedField := by decide
theorem test_reject_bit_5_of_rotl : decode 0x10000020#32 0x12345678#32 = .error .reservedField := by decide
theorem test_reject_bit_1_of_blockfn : decode 0x12000002#32 0#32 = .error .reservedField := by decide
theorem test_reject_bit_0_of_transform : decode 0x30000001#32 0#32 = .error .reservedField := by decide
theorem test_reject_bit_16_of_construct : decode 0x0101200C#32 0#32 = .error .reservedField := by decide
theorem test_reject_imm_of_ksblock : decode 0x20000000#32 1#32 = .error .immNotZero := by decide
theorem test_reject_tier_3 : decode 0x30300000#32 0#32 = .error .reservedTier := by decide
theorem test_reject_rotl_by_zero : decode 0x10000000#32 0x12345678#32 = .error .rotateByZero := by decide

/-! The table's numbering: CMD in bits 31 to 0, IMM above them. -/

theorem test_table_word : decodeTableWord 32 0x21000000 = some .ksbatch := by decide
theorem test_table_word_with_imm : decodeTableWord 64 0x0000000702000000 = some (.setctr 7#32) := by decide
theorem test_table_word_rejected : decodeTableWord 32 0x30300000 = none := by decide

/-! ## 2. Helpers -/

/-- `n` bytes written as one number in hexadecimal, byte 0 first. -/
def bytes (n x : Nat) : List Byte := (List.range n).map fun i => BitVec.ofNat 8 (x >>> (8 * (n - 1 - i)))

/-- The word of four bytes written in the order of the byte interface. -/
def keyWord (i : Nat) : Word := BitVec.ofNat 32 (4 * i) + BitVec.ofNat 32 (4 * i + 1) <<< 8
  + BitVec.ofNat 32 (4 * i + 2) <<< 16 + BitVec.ofNat 32 (4 * i + 3) <<< 24

/-- The fixture K0 of 95_test_vectors.md: key and nonce zero. -/
def k0 (ctr : Word) (exh : Bool) : State := { State.reset with kv := true, ctr := ctr, exh := exh }

/-- The fixture Krfc: key bytes 0x00 to 0x1f, nonce bytes 00000009 0000004a 00000000. -/
def krfc (ctr : Word) : State :=
  { k0 ctr false with
    key := Vector.ofFn fun i => keyWord i.val
    nonce := #v[0x09000000#32, 0x4a000000#32, 0#32] }

/-- The state in which the host sends one request. -/
def asking (s : State) (cmd imm : Word) (data : List Byte) : State :=
  { s with inbox := [.command { cmd := cmd, imm := imm, data := data }] }

/-- What a step shows: the responses delivered, CTR and EXH; none where it has no next state. -/
def shown (o : Host.Outcome State Fault Refusal) : Option (List Response × Word × Bool) :=
  match o with
  | .next t => some (t.outbox, t.ctr, t.exh)
  | .fault _ => none
  | .refused _ => none

/-- What `n` steps show. -/
def after (n : Nat) (s : State) : Option (List Response × Word × Bool) := shown (runSteps n s)

/-- A response with status OK. -/
def okWith (rdata : List Byte) : List Response := [{ status := .ok, rdata := rdata }]

/-- A response that reports an error. -/
def failed (st : Status) : List Response := [{ status := st, rdata := [] }]

/-! ## 3. Results of the commands -/

/-- R200, R201, on an exhausted engine: byte 4j of the key is the least significant byte of KEY[j], the nonce likewise;
CTR becomes 0 and EXH is cleared. -/
theorem test_construct :
    (match step (asking (k0 5#32 true) 0x0100200C#32 0#32
        (bytes 44 0x000102030405060708090a0b0c0d0e0f101112131415161718191a1b1c1d1e1f000000090000004a00000000)) with
      | .next t => decide (t.key[0] = 0x03020100#32 ∧ t.key[7] = 0x1f1e1d1c#32 ∧
          t.nonce = #v[0x09000000#32, 0x4a000000#32, 0#32] ∧ t.ctr = 0#32 ∧ t.exh = false ∧ t.kv = true)
      | .fault _ => false
      | .refused _ => false) = true := by
  decide +kernel

/-- CT10: a failed CONSTRUCT keeps the old state. -/
theorem test_construct_key_of_31_bytes :
    after 1 (asking (krfc 1#32) 0x01001F0C#32 0#32 (List.replicate 43 0#8)) =
      some (failed .invalidKeySize, 1#32, false) := by
  decide +kernel

/-- CT20: SETCTR clears EXH. -/
theorem test_setctr :
    after 1 (asking (k0 0 true) 0x02000000#32 0#32 ([])) =
      some (okWith [], 0#32, false) := by
  decide +kernel

/-- CT12. -/
theorem test_setctr_before_construct :
    after 1 (asking (State.reset) 0x02000000#32 5#32 ([])) =
      some (failed .notConstructed, 0#32, false) := by
  decide +kernel

/-- CT15. -/
theorem test_getctr :
    after 1 (asking (k0 7 false) 0x03000000#32 0#32 ([])) =
      some (okWith (bytes 8 0x0700000000000000), 7#32, false) := by
  decide +kernel

/-- CT19. -/
theorem test_getctr_exhausted :
    after 1 (asking (k0 0 true) 0x03000000#32 0#32 ([])) =
      some (okWith (bytes 8 0x0000000001000000), 0#32, true) := by
  decide +kernel

/-- ROT1. -/
theorem test_rotl_wraps :
    after 1 (asking (State.reset) 0x10000001#32 0x80000000#32 ([])) =
      some (okWith (bytes 4 0x01000000), 0#32, false) := by
  decide +kernel

/-- ROT6. -/
theorem test_rotl_by_12 :
    after 1 (asking (State.reset) 0x1000000C#32 0xDEADBEEF#32 ([])) =
      some (okWith (bytes 4 0xeafdeedb), 0#32, false) := by
  decide +kernel

/-- QR4. -/
theorem test_qround :
    after 1 (asking (State.reset) 0x11000000#32 0#32 (bytes 16 0x1111111104030201436f8d9b67452301)) =
      some (okWith (bytes 16 0xf4922aeacef81ccb2e478145bbc48158), 0#32, false) := by
  decide +kernel

/-- QR3: a + b wraps to 0. -/
theorem test_qround_carry :
    after 1 (asking (State.reset) 0x11000000#32 0#32 (bytes 16 0xffffffff010000000000000000000000)) =
      some (okWith (bytes 16 0x00100000000008080000100000001000), 0#32, false) := by
  decide +kernel

/-- BF3. -/
theorem test_blockfn :
    after 1 (asking (State.reset) 0x12000000#32 0#32 (bytes 64 0x657870616e642033322d62797465206b000102030405060708090a0b0c0d0e0f101112131415161718191a1b1c1d1e1f01000000000000090000004a00000000)) =
      some (okWith (bytes 64 0x10f1e7e4d13b5915500fdd1fa32071c4c7d1f4c733c068030422aa9ac3d46c4ed2826446079faa0914c2d705d98b02a2b5129cd1de164eb9cbd083e8a2503c4e), 0#32, false) := by
  decide +kernel

/-- BF4. -/
theorem test_blockfn_raw :
    after 1 (asking (State.reset) 0x12000001#32 0#32 (bytes 64 0x657870616e642033322d62797465206b000102030405060708090a0b0c0d0e0f101112131415161718191a1b1c1d1e1f01000000000000090000004a00000000)) =
      some (okWith (bytes 64 0xab78778363d738e21ee27aa62fbb5059c7d0f2c42fbb62fcfc18a08fb7c75e3fc2715233f38994f2fca8bdeabd6ee482b4129cd1de164eb0cbd0839ea2503c4e), 0#32, false) := by
  decide +kernel

/-- KS1. -/
theorem test_ksblock :
    after 1 (asking (krfc 1#32) 0x20000000#32 0#32 ([])) =
      some (okWith (bytes 64 0x10f1e7e4d13b5915500fdd1fa32071c4c7d1f4c733c068030422aa9ac3d46c4ed2826446079faa0914c2d705d98b02a2b5129cd1de164eb9cbd083e8a2503c4e), 2#32, false) := by
  decide +kernel

/-- KS4: the last block. -/
theorem test_ksblock_last :
    after 1 (asking (k0 0xFFFFFFFF#32 false) 0x20000000#32 0#32 ([])) =
      some (okWith (bytes 64 0xace4cd09e294d1912d4ad205d06f95d9c2f2bfcf453e8753f128765b62215f4d92c74f2f626c6a640c0b1284d839ec81f1696281dafc3e684593937023b58b1d), 0#32, true) := by
  decide +kernel

/-- KB1. -/
theorem test_ksbatch :
    after 1 (asking (k0 0 false) 0x21000000#32 0#32 []) =
      some (okWith (bytes 128 0x76b8e0ada0f13d90405d6ae55386bd28bdd219b8a08ded1aa836efcc8b770dc7da41597c5157488d7724e03fb8d84a376a43b8f41518a11cc387b669b2ee65869f07e7be5551387a98ba977c732d080dcb0f29a048e3656912c6533e32ee7aed29b721769ce64e43d57133b074d839d531ed1f28510afb45ace10a1f4b794d6f ++ bytes 128 0x2d09a0e663266ce1ae7ed1081968a0758e718e997bd362c6b0c34634a9a0b35d012737681f7b5d0f281e3afde458bc1e73d2d313c9cf94c05ff3716240a248f21320a058d7b3566bd520daaa3ed2bf0ac5b8b120fb852773c3639734b45c91a42dd4cb83f8840d2eedb158131062ac3f1f2cf8ff6dcd1856e86a1e6c3167167e ++
          bytes 128 0xe5a688742b47c5adfb59d4df76fd1db1e51ee03b1ca9f82aca173edb8b7293474ebe980f904d10c916442b4783a0e984860cb6c957b39c38ed8f51cffaa68a4de01025a39c504546b9dc1406a7eb28151e5150d7b204baa719d4f091021217db5cf1b5c84c4fa71a879610a1a695ac527c5b56774a6b8a21aae88685868e094c ++ bytes 128 0xf29ef4090af7a90cc07e8817aa528763797d3c332b67ca4bc110642c2151ec47ee84cb8c42d85f10e2a8cb18c3b7335f26e8c39a12b1bcc1707177b76138732eedaab74da1410fc055ea068c99e9260acbe337cf5d3e00e5b3230ffedb0b990787d0c70e0bfe4198ea6758dd5a61fb5fec2df981f31befe153f81d17161784db), 8#32, false) := by
  decide +kernel

/-- KB3. -/
theorem test_ksbatch_too_near_the_end :
    after 1 (asking (k0 0xFFFFFFF9#32 false) 0x21000000#32 0#32 ([])) =
      some (failed .counterOverflow, 0xFFFFFFF9#32, false) := by
  decide +kernel

/-- TR3. -/
theorem test_transform_ref_one_byte :
    after 1 (asking (krfc 1#32) 0x30000000#32 0#32 ([0#8])) =
      some (okWith (bytes 1 0x10), 2#32, false) := by
  decide +kernel

/-- TR4: 65 bytes consume 2 blocks. -/
theorem test_transform_ro_65_bytes :
    after 1 (asking (krfc 1#32) 0x30100000#32 0#32 (bytes 65 0x000102030405060708090a0b0c0d0e0f101112131415161718191a1b1c1d1e1f202122232425262728292a2b2c2d2e2f303132333435363738393a3b3c3d3e3f40)) =
      some (okWith (bytes 65 0x10f0e5e7d53e5f125806d714af2d7fcbd7c0e6d427d57e141c3bb081dfc97251f2a3466523ba8c2e3cebfd2ef5a62c8d8523aee2ea23788ef3e9b9d39e6d02714a), 3#32, false) := by
  decide +kernel

/-- TR7: lanes 2 to 7 wrap and are discarded. -/
theorem test_transform_vec_near_the_end :
    after 1 (asking (k0 0xFFFFFFFE#32 false) 0x30200000#32 0#32 (List.replicate 65 0#8)) =
      some (okWith (bytes 65 0x032cc123482c31711f94c941af5ab1f4155784332ed5348fe79aec5ead4c06c3f13c280d8cc49925e4a6a5922ec80e13a4cdfa840c70a1427a3cb699166991a5ac), 0#32, true) := by
  decide +kernel

/-- TR9: refused whole. -/
theorem test_transform_ref_overflow :
    after 1 (asking (k0 0xFFFFFFFF#32 false) 0x30000000#32 0#32 (List.replicate 65 0#8)) =
      some (failed .counterOverflow, 0xFFFFFFFF#32, false) := by
  decide +kernel

/-- TR2: no byte needs no block. -/
theorem test_transform_vec_empty :
    after 1 (asking (k0 0 true) 0x30200000#32 0#32 ([])) =
      some (okWith [], 0#32, true) := by
  decide +kernel

/-- TR11 at another tier. -/
theorem test_transform_ro_before_construct :
    after 1 (asking (State.reset) 0x30100000#32 0#32 ([])) =
      some (failed .notConstructed, 0#32, false) := by
  decide +kernel

/-- ENCRYPT, DECRYPT and SEEK, run by name, as TR3 and CT20. -/
theorem test_second_names :
    shown (exec (.encrypt .reference) { krfc 1#32 with data := [0#8] }) = some ([], 2#32, false) ∧
    shown (exec (.decrypt .reduced) { krfc 1#32 with data := [0#8] }) = some ([], 2#32, false) ∧
    shown (exec (.seek 0#32) (k0 0#32 true)) = some ([], 0#32, false) := by
  decide +kernel

/-! ## 4. The priority of errors, the fetched word and the port -/

/-- EP4. -/
theorem test_illegal_before_malformed :
    after 1 (asking (State.reset) 0x20000000#32 1#32 ([0#8])) =
      some (failed .illegalCommand, 0#32, false) := by
  decide +kernel

/-- EP6: 44 bytes are not 31 + 12. -/
theorem test_malformed_before_key_size :
    after 1 (asking (State.reset) 0x01001F0C#32 0#32 (List.replicate 44 0#8)) =
      some (failed .malformedPayload, 0#32, false) := by
  decide +kernel

/-- A word placed to be run next is run by the next step. -/
theorem test_fetch_word :
    shown (step (State.reset.withFetchWord 32 0x0100200C)) = some (okWith [], 0#32, false) ∧
    shown (step (State.reset.withFetchWord 32 0x20000000)) = some (failed .notConstructed, 0#32, false) ∧
    shown (step (State.reset.withFetchWord 32 0x00000000)) = some (failed .illegalCommand, 0#32, false) := by
  decide +kernel

/-- The transfers of a QROUND whose response is taken before its payload is sent (R255): QR2. -/
theorem test_port_response_before_payload :
    after 34 { State.reset with
      inbox := [.requestTransfer 0x11000000#32 0#32 16#40, .responseTransfer] ++
        (bytes 16 0x00000000000000000000000001000000).map .payloadTransfer ++ List.replicate 16 .byteTransfer } =
      some (okWith (bytes 16 0x00000010080880801000010110000001), 0#32, false) := by
  decide +kernel

/-- The payload of a command that fails is accepted and dropped, and the engine is ready again (R255). -/
theorem test_port_drops_the_payload_of_an_error :
    (match runSteps 3 { State.reset with
        inbox := [.requestTransfer 0x20000000#32 0#32 1#40, .payloadTransfer 0#8, .responseTransfer] } with
      | .next t => decide (t.outbox = failed .malformedPayload ∧ t.reqReady = true ∧ t.data = [])
      | .fault _ => false
      | .refused _ => false) = true := by
  decide +kernel

/-! ## 5. Witnesses: the hypotheses of every obligation that has some are met -/

/-- A constructed engine with a payload in DATA. -/
def fed (ctr : Word) (exh : Bool) (data : List Byte) : State := { k0 ctr exh with data := data }

/-- An engine in the middle of a QROUND: its request transferred, 3 of 16 bytes accepted. -/
def midway : State :=
  { State.reset with
    data := [1#8, 2#8, 3#8]
    port := .busy { cmd := 0x11000000#32, imm := 0#32, len := 16#40, statusSent := false, sent := 0 } }

/-- An engine that has executed a GETCTR over the port and has 2 of its 8 response bytes to transfer. -/
def answering : State :=
  { k0 7#32 false with
    rsp := some { status := .ok, rdata := bytes 8 0x0700000000000000 }
    port := .busy { cmd := 0x03000000#32, imm := 0#32, len := 0#40, statusSent := true, sent := 6 } }

/-- A transaction TRANSFORM of two bytes whose response has been transferred, and `n` response bytes. -/
def carrying (n : Nat) : Transfer := { cmd := 0x30000000#32, imm := 0#32, len := 2#40, statusSent := true, sent := n }

/-- The engine in that transaction, with one of the two payload bytes accepted. -/
def streaming (n : Nat) : State := { krfc 1#32 with data := [0#8], port := .busy (carrying n) }

theorem inv_idle_exhausted : Inv (asking (k0 0#32 true) 0x03000000#32 0#32 []) := by
  refine ⟨fun _ => rfl, fun _ => rfl, fun _ => ⟨rfl, rfl⟩, ?_, ?_, ?_, ?_, ?_, ?_⟩
  · intro t h; cases h
  · intro t h; cases h
  · intro t h; cases h
  · intro t h; cases h
  · intro r h; cases h
  · intro t r h; cases h

theorem inv_midway (q : List HostEvent) : Inv { midway with inbox := q } := by
  refine ⟨?_, ?_, ?_, ?_, ?_, ?_, ?_, ?_, ?_⟩
  · intro h; cases h
  · intro h; cases h
  · intro h; cases h
  · intro t h; cases h; exact (by decide : 3 ≤ (16#40).toNat)
  · intro t h; cases h; exact ⟨fun h => absurd rfl h, fun h => absurd h (by decide : ¬3 = (16#40).toNat)⟩
  · intro t h; cases h; exact Nat.zero_le _
  · intro t h; cases h; intro _; rfl
  · intro r h; cases h
  · intro t r h h'; cases h'

theorem inv_answering : Inv answering := by
  refine ⟨?_, ?_, ?_, ?_, ?_, ?_, ?_, ?_, ?_⟩
  · intro h; cases h
  · intro h; cases h
  · intro h; cases h
  · intro t h; cases h; decide
  · intro t h; cases h; decide
  · intro t h; cases h; decide
  · intro t h; cases h; intro h; cases h
  · intro r h; cases h; intro h; exact absurd rfl h
  · intro t r h h'; cases h; cases h'; decide

theorem inv_streaming : Inv (streaming 0) := by
  refine ⟨?_, ?_, ?_, ?_, ?_, ?_, ?_, ?_, ?_⟩
  · intro h; cases h
  · intro h; cases h
  · intro h; cases h
  · intro t h; cases h; decide
  · intro t h; cases h; exact ⟨fun h => absurd rfl h, fun h => absurd h (by decide : ¬1 = (2#40).toNat)⟩
  · intro t h; cases h; exact Nat.zero_le _
  · intro t h; cases h; intro _; rfl
  · intro r h; cases h
  · intro t r h h'; cases h'

theorem witness_IdleEngineKeepsItsState : ∃ s : State, s.inbox = [] ∧ s.kv = true := ⟨k0 3#32 false, rfl, rfl⟩

theorem witness_StepExecutesTheDecodedCommand :
    ∃ (s : State) (r : Request) (rest : List HostEvent) (i : Instr),
      s.port = .idle ∧ s.inbox = .command r :: rest ∧ r.data.length < 2 ^ 40 ∧ decode r.cmd r.imm = .ok i :=
  ⟨asking (k0 0#32 false) 0x20000000#32 0#32 [], ⟨0x20000000#32, 0#32, []⟩, [], .ksblock, rfl, rfl, by decide, by decide⟩

theorem witness_UndecodableWordsAreAnsweredIllegal :
    ∃ (s : State) (r : Request) (rest : List HostEvent) (e : DecodeReject),
      s.port = .idle ∧ s.inbox = .command r :: rest ∧ r.data.length < 2 ^ 40 ∧ decode r.cmd r.imm = .error e :=
  ⟨asking State.reset 0#32 0#32 [0#8], ⟨0#32, 0#32, [0#8]⟩, [], .unassignedOpcode, rfl, rfl, by decide, by decide⟩

theorem witness_ResetAbortsTheTransaction :
    ∃ (s : State) (rest : List HostEvent), s.inbox = .reset :: rest ∧ s.port ≠ .idle :=
  ⟨{ midway with inbox := [.reset] }, [], rfl, by decide⟩

theorem witness_SecondRequesterHasNoMove :
    ∃ (s : State) (r : Request) (rest : List HostEvent), s.inbox = .secondRequester r :: rest :=
  ⟨{ State.reset with inbox := [.secondRequester ⟨0#32, 0#32, []⟩] }, _, _, rfl⟩

/-- Each of the five signals can be low, and each can be high. -/
theorem witness_BrokenHandshakeHasNoMove :
    midway.reqReady = false ∧ State.reset.reqReady = true ∧
    answering.dinReady = false ∧ midway.dinReady = true ∧
    answering.rspValid = false ∧ midway.rspValid = true ∧
    midway.doutValid = false ∧ answering.doutValid = true := by
  decide

/-- Every signal is high somewhere, also for a response byte before the payload is complete. The invariant holds of
engines inside a transaction; the last clauses apply to an executed command, and to a TRANSFORM on both sides of the last
byte it can offer. -/
theorem witness_AllowedTransfersHappen :
    State.reset.allows (.command ksblockRequest) = true ∧ State.reset.allows (.requestTransfer 0#32 0#32 0#40) = true ∧
    midway.allows (.payloadTransfer 0#8) = true ∧ midway.allows .responseTransfer = true ∧
    answering.allows .byteTransfer = true ∧ (streaming 0).allows .byteTransfer = true ∧ midway.allows .reset = true ∧
    (Inv midway ∧ midway.port ≠ .idle) ∧ (Inv answering ∧ answering.port ≠ .idle ∧ answering.rsp ≠ none) ∧
    (Inv (streaming 0) ∧ (streaming 0).port = .busy (carrying 0)) ∧
    decode 0x30000000#32 0#32 = .ok .transformRef ∧ transformTier .transformRef = some .reference ∧
    (streaming 0).rspStatus (carrying 0) = .ok ∧ 0 < (streaming 0).data.length ∧
    (streaming 1).doutValid = false ∧ ¬1 < (streaming 1).data.length :=
  ⟨by decide, by decide, by decide, by decide, by decide, by decide +kernel, by decide, ⟨inv_midway [], by decide⟩,
    ⟨inv_answering, by decide, by decide⟩, ⟨inv_streaming, rfl⟩, by decide, by decide, by decide, by decide, by decide +kernel, by decide⟩

/-- A payload of any length can be asked for. -/
theorem payload_of_any_length (n : Nat) :
    ∃ (s : State) (r : Request) (rest : List HostEvent),
      s.port = .idle ∧ s.inbox = .command r :: rest ∧ n ≤ r.data.length :=
  ⟨asking State.reset 0x30000000#32 0#32 (List.replicate n 0#8), _, _, rfl, rfl,
    Nat.le_of_eq (List.length_replicate ..).symm⟩

theorem witness_OverlongPayloadHasNoMove :
    ∃ (s : State) (r : Request) (rest : List HostEvent),
      s.port = .idle ∧ s.inbox = .command r :: rest ∧ 2 ^ 40 ≤ r.data.length :=
  payload_of_any_length (2 ^ 40)

theorem witness_StepDeliversAtMostOneResponse : ∃ s t : State, step s = .next t ∧ t.outbox ≠ s.outbox :=
  ⟨asking State.reset 0#32 0#32 [], _, rfl, by decide⟩

/-- The illegal words, a wrong payload length, keys of 31 and 33 bytes, nonces of 11 and 13 bytes, and the right lengths. -/
theorem witness_ConstructLoadsKeyNonceAndCounter :
    (0x0101200C#32).extractLsb 31 24 = 0x01#8 ∧ (0x0101200C#32).extractLsb 23 16 ≠ 0#8 ∧
    (List.replicate 43 0#8).length ≠ (32#8).toNat + (12#8).toNat ∧
    (List.replicate 43 0#8).length = (31#8).toNat + (12#8).toNat ∧ (31#8).toNat ≠ 32 ∧
    (List.replicate 45 0#8).length = (33#8).toNat + (12#8).toNat ∧ (33#8).toNat ≠ 32 ∧
    (List.replicate 43 0#8).length = (32#8).toNat + (11#8).toNat ∧ (32#8).toNat = 32 ∧ (11#8).toNat ≠ 12 ∧
    (List.replicate 45 0#8).length = (32#8).toNat + (13#8).toNat ∧ (13#8).toNat ≠ 12 ∧
    (List.replicate 44 0#8).length = (32#8).toNat + (12#8).toNat ∧ (12#8).toNat = 12 := by
  decide

theorem witness_SetctrOverwritesTheCounter :
    (0x02000001#32).extractLsb 31 24 = 0x02#8 ∧ (0x02000001#32).extractLsb 23 0 ≠ 0#24 ∧
    (fed 0#32 false [0#8]).data ≠ [] ∧ State.reset.data = [] ∧ State.reset.kv = false ∧
    (k0 0xFFFFFFFF#32 true).data = [] ∧ (k0 0xFFFFFFFF#32 true).kv = true := by
  decide

theorem witness_GetctrReadsCounterAndFlag :
    (0x03000001#32).extractLsb 31 24 = 0x03#8 ∧ (0x03000001#32).extractLsb 23 0 ≠ 0#24 ∧
    (fed 0#32 false [0#8]).data ≠ [] ∧ State.reset.data = [] ∧ State.reset.kv = false ∧
    (k0 0#32 true).data = [] ∧ (k0 0#32 true).kv = true ∧ (k0 0#32 true).exh = true := by
  decide

/-- N at both ends of its range, both kinds of illegal words, and both payload clauses. -/
theorem witness_RotlMovesBitsCircularly :
    1#5 ≠ 0#5 ∧ 31#5 ≠ 0#5 ∧ (0x10000020#32).extractLsb 31 24 = 0x10#8 ∧ (0x10000020#32).extractLsb 23 5 ≠ 0#19 ∧
    (0x10000000#32).extractLsb 31 24 = 0x10#8 ∧ (0x10000000#32).extractLsb 4 0 = 0#5 ∧
    (fed 0#32 false [0#8]).data ≠ [] ∧ State.reset.data = [] := by
  decide

theorem witness_QroundMixesFourWords :
    (0x11000001#32).extractLsb 31 24 = 0x11#8 ∧ (0x11000001#32).extractLsb 23 0 ≠ 0#24 ∧
    (fed 0#32 false (List.replicate 15 0#8)).data.length ≠ 16 ∧
    (fed 0#32 false (bytes 16 0xffffffff010000000000000000000000)).data
      = ser32 0xFFFFFFFF#32 ++ ser32 1#32 ++ ser32 0#32 ++ ser32 0#32 := by
  decide

theorem witness_BlockfnComputesTheCore :
    (0x12000002#32).extractLsb 31 24 = 0x12#8 ∧ (0x12000002#32).extractLsb 23 1 ≠ 0#23 ∧
    (fed 0#32 false (List.replicate 63 0#8)).data.length ≠ 64 ∧
    (fed 0#32 false (List.replicate 64 0#8)).data = serWords (Vector.replicate 16 0#32 : Words16).toList := by
  decide

/-- The last counter is an ordinary one to produce; the exhausted engine is not. -/
theorem witness_KsblockProducesTheNextBlock :
    (0x20000001#32).extractLsb 31 24 = 0x20#8 ∧ (0x20000001#32).extractLsb 23 0 ≠ 0#24 ∧
    (fed 0#32 false [0#8]).data ≠ [] ∧ State.reset.data = [] ∧ State.reset.kv = false ∧
    (k0 0#32 true).data = [] ∧ (k0 0#32 true).kv = true ∧ (k0 0#32 true).exh = true ∧
    (k0 0xFFFFFFFF#32 false).data = [] ∧ (k0 0xFFFFFFFF#32 false).kv = true ∧ (k0 0xFFFFFFFF#32 false).exh = false := by
  decide

/-- The clauses meet between CTR = 0xFFFFFFF8 and 0xFFFFFFF9. -/
theorem witness_KsbatchProducesEightBlocks :
    (0x21100000#32).extractLsb 31 24 = 0x21#8 ∧ (0x21100000#32).extractLsb 23 0 ≠ 0#24 ∧
    (fed 0#32 false [0#8]).data ≠ [] ∧ State.reset.data = [] ∧ State.reset.kv = false ∧
    (k0 0#32 true).kv = true ∧ (k0 0#32 true).exh = true ∧ 0xFFFFFFF8 < (k0 0xFFFFFFF9#32 false).ctr.toNat ∧
    (k0 0xFFFFFFF8#32 false).kv = true ∧ (k0 0xFFFFFFF8#32 false).exh = false ∧
    (k0 0xFFFFFFF8#32 false).ctr.toNat ≤ 0xFFFFFFF8 := by
  decide

/-- No key; an empty payload on an exhausted engine; 64 bytes at the last counter fit, 65 do not. -/
theorem witness_TransformXorsTheKeystream :
    (0x30000001#32).extractLsb 31 24 = 0x30#8 ∧ (0x30000001#32).extractLsb 19 0 ≠ 0#20 ∧
    (0x30300000#32).extractLsb 31 24 = 0x30#8 ∧ 2 < ((0x30300000#32).extractLsb 23 20).toNat ∧
    transformTier .transformVec = some .vectorized ∧ transformTier (.decrypt .reduced) = some .reduced ∧
    State.reset.kv = false ∧ (k0 0#32 true).kv = true ∧ (k0 0#32 true).data = [] ∧
    (fed 0xFFFFFFFF#32 false (List.replicate 65 0#8)).data ≠ [] ∧
    2 ^ 32 < (fed 0xFFFFFFFF#32 false (List.replicate 65 0#8)).nbi
      + ((fed 0xFFFFFFFF#32 false (List.replicate 65 0#8)).data.length + 63) / 64 ∧
    (fed 0xFFFFFFFF#32 false (List.replicate 64 0#8)).data ≠ [] ∧
    (fed 0xFFFFFFFF#32 false (List.replicate 64 0#8)).nbi
      + ((fed 0xFFFFFFFF#32 false (List.replicate 64 0#8)).data.length + 63) / 64 ≤ 2 ^ 32 := by
  decide

theorem witness_FirstFailingCheckIsReported : decode 0x30300000#32 0#32 = .error .reservedTier := by decide

theorem witness_ErrorHasNoEffect :
    (∃ (i : Instr) (s t : State) (r : Response), exec i s = .next t ∧ t.rsp = some r ∧ r.status ≠ .ok) ∧
    ∃ (cmd imm : Word) (s t : State) (r : Response), execute cmd imm s = .next t ∧ t.rsp = some r ∧ r.status ≠ .ok :=
  ⟨⟨.getctr, State.reset, _, _, rfl, rfl, by decide⟩, 0#32, 0#32, State.reset, _, _, rfl, rfl, by decide⟩

theorem witness_UnassignedOpcodesAreIllegal :
    (0x00FFFFFF#32).extractLsb 31 24 ∉ [0x01#8, 0x02#8, 0x03#8, 0x10#8, 0x11#8, 0x12#8, 0x20#8, 0x21#8, 0x30#8] := by
  decide

theorem witness_NotConstructedIsForStateReaders :
    (isKeystream .ksbatch = true ∧ State.reset.kv = false ∧ requiredLen .ksbatch = some State.reset.data.length) ∧
    (isKeystream (.encrypt .reference) = true ∧ requiredLen (.encrypt .reference) = none) ∧
    requiredLen (.seek 1#32) = some State.reset.data.length ∧
    ∃ (t : State) (r : Response), exec (.rotl 1#32 1#5) State.reset = .next t ∧ t.rsp = some r :=
  ⟨by decide, by decide, by decide, _, _, rfl, rfl⟩

theorem witness_OverflowDoesNotLockTheEngine :
    (∃ (i : Instr) (s t : State), exec i s = .next t ∧ t.rsp = some { status := .counterOverflow, rdata := [] }) ∧
    (List.replicate 44 (0#8 : Byte)).length = 44 ∧
    (k0 0xFFFFFFFE#32 false).nbi + ((List.replicate 65 (0#8 : Byte)).length + 63) / 64 ≤ 2 ^ 32 :=
  ⟨⟨.ksbatch, k0 0xFFFFFFFE#32 false, _, rfl, rfl⟩, by decide, by decide⟩

theorem witness_DiagnosticsReadAndWriteNoRegister :
    ∃ (i : Instr) (s : State) (g : Registers), i = .qround ∧ g ≠ s.registers :=
  ⟨.qround, State.reset, (k0 1#32 false).registers, rfl, by decide⟩

theorem witness_ControlCommandsFrame :
    ∃ s t u v : State, exec (.setctr 9#32) s = .next t ∧ exec (.seek 9#32) s = .next t ∧ exec .getctr s = .next u ∧
      exec (.construct 32#8 12#8) { s with data := List.replicate 44 0#8 } = .next v :=
  ⟨k0 1#32 false, _, _, _, rfl, rfl, rfl, rfl⟩

theorem witness_KeystreamCommandsFrame :
    ∃ (i : Instr) (s t : State), isKeystream i = true ∧ exec i s = .next t ∧ s.kv = true :=
  ⟨.transformVec, fed 1#32 false [], _, rfl, rfl, rfl⟩

/-- By reset, by a whole request, and by the last payload byte of a request that is carried over the port. -/
theorem witness_OnlyConstructAndResetChangeTheKey :
    (∃ s t : State, step s = .next t ∧ t.kv ≠ s.kv) ∧
    (∃ s t : State, step { s with inbox := [.command ⟨0x0100200C#32, 0#32, List.replicate 44 1#8⟩] } = .next t ∧
      t.kv ≠ s.kv) ∧
    ∃ (s t : State) (p : Transfer), s.port = .busy p ∧ s.data.length + 1 = p.len.toNat ∧
      step { s with inbox := [.payloadTransfer 1#8] } = .next t ∧ t.kv ≠ s.kv :=
  ⟨⟨{ k0 1#32 false with inbox := [.reset] }, _, rfl, by decide⟩, ⟨State.reset, _, rfl, by decide⟩,
    { State.reset with data := List.replicate 43 1#8, port := .busy ⟨0x0100200C#32, 0#32, 44#40, false, 0⟩ }, _, _, rfl,
    by decide, rfl, by decide⟩

theorem witness_OnlyKeystreamDependsOnTheKey : isKeystream (.blockfn true) = false := by decide

theorem witness_RepeatedCommands :
    (∃ i : Instr, i = .getctr) ∧ (∃ i : Instr, ∃ k n, i = .construct k n) ∧
    isKeystream .transformRo = true ∧ 1 ≤ blocksNeeded .transformRo (fed 1#32 false [0#8]).data.length :=
  ⟨⟨_, rfl⟩, ⟨.construct 32#8 12#8, _, _, rfl⟩, by decide, by decide⟩

theorem witness_CounterAdvancesByTheBlocksConsumed :
    (k0 0xFFFFFFFF#32 false).nbi ≤ 2 ^ 32 ∧ (k0 0#32 true).nbi ≤ 2 ^ 32 ∧
    (∀ k n, Instr.ksblock ≠ .construct k n) ∧ ∀ v, Instr.ksblock ≠ .setctr v ∧ Instr.ksblock ≠ .seek v :=
  ⟨by decide, by decide, by simp, by simp⟩

/-- Both sides of the boundary. -/
theorem witness_OverflowExactlyWhenACounterWouldExceed :
    isKeystream .ksbatch = true ∧ (k0 0xFFFFFFF8#32 false).kv = true ∧
    requiredLen .ksbatch = some (k0 0xFFFFFFF8#32 false).data.length ∧ 1 ≤ blocksNeeded .ksbatch 0 ∧
    (k0 0xFFFFFFF8#32 false).nbi + 8 = 2 ^ 32 ∧ (k0 0xFFFFFFF9#32 false).nbi + 8 = 2 ^ 32 + 1 := by
  decide

/-- The invariant holds of an exhausted engine and in the middle of a transaction, and steps are possible there. -/
theorem witness_EveryStepKeepsTheInvariant :
    (∃ s t : State, Inv s ∧ step s = .next t ∧ s.exh = true) ∧ ∃ s t : State, Inv s ∧ step s = .next t ∧ s.port ≠ .idle :=
  ⟨⟨_, _, inv_idle_exhausted, rfl, rfl⟩, { midway with inbox := [.payloadTransfer 4#8] }, _, inv_midway _, rfl, by decide⟩

theorem witness_HiddenStateIsNeverObserved : ∃ s t : State, SameButHidden s t ∧ s ≠ t :=
  ⟨k0 1#32 false, { k0 1#32 false with freeCount := 5, hidden := { Hidden.initial with ser := [1#32] } }, rfl, by decide⟩

theorem witness_UnconstructedWordsAreNeverRead : ∃ s t : State, SameButValues s t ∧ s ≠ t :=
  ⟨State.reset, { State.reset with ctr := 9#32 }, ⟨rfl, rfl⟩, by decide⟩

theorem witness_LanesEqualTheScalarKeystream : 512 ≤ 512 ∧ 65 ≤ 512 := by decide

theorem witness_VectorOperationsActPerLane : 0 < 12 ∧ 12 < 32 := by decide

/-- The last batch of a stream. -/
theorem witness_BatchEqualsEightKsblocks :
    (k0 0xFFFFFFF8#32 false).port = .idle ∧ (k0 0xFFFFFFF8#32 false).kv = true ∧ (k0 0xFFFFFFF8#32 false).exh = false ∧
    (k0 0xFFFFFFF8#32 false).ctr.toNat ≤ 0xFFFFFFF8 := by
  decide

theorem witness_TransformIsAnInvolution :
    ∃ (s u : State) (c : List Byte), exec Tier.reference.transform s = .next u ∧
      u.rsp = some { status := .ok, rdata := c } ∧ s.data ≠ [] :=
  ⟨fed 1#32 false [7#8], _, _, rfl, rfl, by decide⟩

/-- The first part ends a block and the whole reaches the last counter. -/
theorem witness_TransformSplitsAtBlockBoundaries :
    (k0 0xFFFFFFFE#32 false).kv = true ∧ (List.replicate 64 0#8).length % 64 = 0 ∧
    (k0 0xFFFFFFFE#32 false).nbi + ((List.replicate 64 0#8 ++ [1#8]).length + 63) / 64 ≤ 2 ^ 32 := by
  decide

theorem witness_RotlTwiceReturnsTheWord : 31#5 ≠ 0#5 ∧ State.reset.data = [] := by decide

theorem witness_DecodeOfEncodeIsTheCommand : (Instr.rotl 5#32 31#5).wellFormed = true := by decide

theorem witness_EncodeOfDecodeIsTheWords : decode 0x1000001F#32 5#32 = .ok (.rotl 5#32 31#5) := by decide

theorem witness_PortTransfersCarryTheCommand :
    State.reset.port = .idle ∧ (List.replicate 16 0#8).length < 2 ^ 40 := by
  decide

/-- In the middle of a payload, and with the response there. -/
theorem witness_ResponseHeaderNeedsNoPayload :
    (∃ (t : Transfer) (more : List Byte), midway.port = .busy t ∧ midway.rsp = none ∧
      (midway.data ++ more).length = t.len.toNat) ∧
    ∃ (t : Transfer) (r : Response), answering.port = .busy t ∧ answering.rsp = some r :=
  ⟨⟨_, List.replicate 13 0#8, rfl, rfl, by decide⟩, _, _, rfl, rfl⟩

/-- The order of a TRANSFORM of two bytes in which everything comes as early as it can: the response before the payload,
and each response byte before the next payload byte. -/
def earliest : List HostEvent :=
  [.responseTransfer, .payloadTransfer 0#8, .byteTransfer, .payloadTransfer 1#8, .byteTransfer]

/-- A run that has a next state with the port ready has such a state. -/
theorem exists_of_ready {o : Host.Outcome State Fault Refusal}
    (h : (match o with | .next t => decide (t.port = .idle) | .fault _ => false | .refused _ => false) = true) :
    ∃ t : State, o = .next t ∧ t.port = .idle := by
  split at h
  · exact ⟨_, rfl, of_decide_eq_true h⟩
  · cases h
  · cases h

theorem witness_AnyTransferOrderCarriesTheCommand :
    (krfc 1#32).port = .idle ∧ (∀ e ∈ earliest, e.isInside = true) ∧
    ∃ t : State, runSteps (1 + earliest.length)
        { krfc 1#32 with inbox := .requestTransfer 0x30000000#32 0#32 2#40 :: (earliest ++ []) } = .next t ∧
      t.port = .idle :=
  ⟨by decide, by decide, exists_of_ready (by decide +kernel)⟩

/-- What that order hands over: STATUS and rsp_len, then the first two bytes of the answer of TR4, whose payload begins with
the same two bytes. -/
theorem test_offers_in_the_earliest_order :
    offersIn 6 { krfc 1#32 with inbox := .requestTransfer 0x30000000#32 0#32 2#40 :: earliest } =
      [.header .ok 2, .byte 0x10#8, .byte 0xf0#8] := by
  decide +kernel

/-- A response byte offered before the payload is complete, and one after the command has been executed. -/
theorem witness_EarlyTransformBytesAreFinal :
    ((streaming 0).port = .busy (carrying 0) ∧ (streaming 0).rsp = none ∧
      ((streaming 0).data ++ [0#8]).length = (carrying 0).len.toNat ∧ (streaming 0).doutValid = true) ∧
    ∃ (t : Transfer) (r : Response), answering.port = .busy t ∧ answering.rsp = some r ∧ answering.doutValid = true :=
  ⟨⟨rfl, rfl, by decide, by decide +kernel⟩, _, _, rfl, rfl, by decide⟩

end Sys2Proof.Tests
end

section
/-! PROOFS. The byte interface (00_scope.md R14): what a read of a payload returns, the byte order of LE32 and ser32, and
that the two are inverse. A word is determined by its four bytes, so `le32_ser32` reads them off by the byte order. -/

namespace Sys2Proof.Machine

/-! ### Reading a payload made of parts -/

theorem byteAt_append_length_add (pre d : List Byte) (i : Nat) :
    byteAt (pre ++ d) (pre.length + i) = byteAt d i := by
  simp [byteAt, List.getElem?_append_right]

theorem byteAt_append_of_lt {d : List Byte} (post : List Byte) {i : Nat} (h : i < d.length) :
    byteAt (d ++ post) i = byteAt d i := by
  simp [byteAt, List.getElem?_append_left h]

/-! ### The bytes of a word -/

theorem word_eq_of_bytes_eq {v w : Word}
    (h : ∀ j : Fin 4, v.extractLsb' (8 * j.val) 8 = w.extractLsb' (8 * j.val) 8) : v = w := by
  ext k hk
  have hbit := congrArg (·.getLsbD (k % 8)) (h ⟨k / 8, by omega⟩)
  simpa [Nat.mod_lt, Nat.div_add_mod, BitVec.getLsbD_eq_getElem hk] using hbit

/-- A byte shifted to place `m` of a word fills that place and leaves the other three zero. -/
theorem extractLsb'_byte_shiftLeft (b : Byte) (m j : Nat) (hj : j < 4) :
    (b.setWidth 32 <<< (8 * m) : Word).extractLsb' (8 * j) 8 = if m = j then b else 0#8 := by
  ext k hk
  rcases Nat.lt_trichotomy m j with hlt | rfl | hgt
  · have hpast : b.getLsbD (8 * j + k - 8 * m) = false := BitVec.getLsbD_of_ge _ _ (by omega)
    simp [hpast, hlt.ne]
  · simp [BitVec.getLsbD_eq_getElem hk, show 8 * m + k < 32 by omega]
  · simp [show 8 * j + k < 8 * m by omega, hgt.ne']

theorem extractLsb'_le32 (d : List Byte) (i : Nat) (j : Fin 4) :
    (le32 d i).extractLsb' (8 * j.val) 8 = byteAt d (i + j.val) := by
  have hplace := fun m => extractLsb'_byte_shiftLeft (byteAt d (i + m)) m j j.isLt
  have h0 := hplace 0
  have h1 := hplace 1
  have h2 := hplace 2
  have h3 := hplace 3
  simp only [Nat.mul_zero, Nat.reduceMul, BitVec.shiftLeft_zero, Nat.add_zero] at h0 h1 h2 h3
  simp only [le32, BitVec.extractLsb'_or, h0, h1, h2, h3]
  fin_cases j <;> simp

theorem byteAt_ser32 (w : Word) (j : Fin 4) : byteAt (ser32 w) j.val = w.extractLsb' (8 * j.val) 8 := by
  fin_cases j <;> rfl

/-! ### LE32 and ser32 are inverse -/

theorem le32_ser32 (w : Word) (pre post : List Byte) : le32 (pre ++ ser32 w ++ post) pre.length = w := by
  apply word_eq_of_bytes_eq
  intro j
  rw [extractLsb'_le32, List.append_assoc, byteAt_append_length_add, byteAt_append_of_lt post j.isLt, byteAt_ser32]

theorem ser32_le32 (d : List Byte) (i : Nat) :
    ser32 (le32 d i) = [byteAt d i, byteAt d (i + 1), byteAt d (i + 2), byteAt d (i + 3)] := by
  have hbyte := extractLsb'_le32 d i
  simp only [ser32, List.cons.injEq, and_true]
  exact ⟨hbyte 0, hbyte 1, hbyte 2, hbyte 3⟩

theorem serWords_cons (w : Word) (ws : List Word) : serWords (w :: ws) = ser32 w ++ serWords ws :=
  List.flatMap_cons

/-- Settles O53: the byte order of LE32 by `extractLsb'_le32`, and both inverse laws from it. -/
theorem littleEndianConversionsAreInverse : Obligations.LittleEndianConversionsAreInverse :=
  ⟨extractLsb'_le32, fun _ => rfl, rfl, serWords_cons, le32_ser32, fun a b c d => ser32_le32 [a, b, c, d] 0⟩

end Sys2Proof.Machine
end

section
/-! PROOFS. Noninterference of the hidden registers (10_state.md R45). A block or a batch overwrites every hidden register it
reads, so what the serializer emits is a function of its input; every outcome of a step is then the same in two states that
differ at most in the hidden registers and in the numbering of the free values. -/

namespace Sys2Proof.Machine

/-! ### The keystream does not depend on the hidden registers it starts from -/

theorem emit_runScalar_hidden (round : RoundPhase → Words16 → Words16) (raw : Bool) (x : Words16) (h h' : Hidden) :
    (h.runScalar round raw x).emit = (h'.runScalar round raw x).emit := by
  simp only [Hidden.emit, runScalar_eq]

theorem emit_runLanes_hidden (lo : Vector LaneVec 16) (h h' : Hidden) :
    (h.runLanes lo).emit = (h'.runLanes lo).emit := by
  simp only [Hidden.emit, runLanes_eq]

theorem scalarKeystream_fst_hidden (round : RoundPhase → Words16 → Words16) (s : State) (n : Nat) (c : Word)
    (h h' : Hidden) : (scalarKeystream round s n c h).1 = (scalarKeystream round s n c h').1 := by
  induction n generalizing c h h' with
  | zero => rfl
  | succ n ih => exact congrArg₂ (· ++ ·) (emit_runScalar_hidden round false _ h h') (ih _ _ _)

theorem laneKeystream_fst_hidden (s : State) (n : Nat) (c : Word) (h h' : Hidden) :
    (laneKeystream s n c h).1 = (laneKeystream s n c h').1 := by
  induction n generalizing c h h' with
  | zero => rfl
  | succ n ih => exact congrArg₂ (· ++ ·) (emit_runLanes_hidden _ h h') (ih _ _ _)

/-- `transformBytes_congr` without its premise that the hidden registers are equal. -/
theorem transformBytes_eq_of_nbi (tier : Tier) {s t : State} (hk : s.key = t.key) (hn : s.nonce = t.nonce)
    (hb : s.nbi = t.nbi) (d : List Byte) : transformBytes tier s d = transformBytes tier t d := by
  have hks : (transformKeystream tier s d).1 = (transformKeystream tier t d).1 := by
    cases tier with
    | reference =>
      simp only [transformKeystream, tierKeystream, hb, scalarKeystream_congr _ hk hn]
      exact scalarKeystream_fst_hidden ..
    | reduced =>
      simp only [transformKeystream, tierKeystream, hb, scalarKeystream_congr _ hk hn]
      exact scalarKeystream_fst_hidden ..
    | vectorized =>
      simp only [transformKeystream, tierKeystream, hb, laneKeystream_congr hk hn]
      exact congrArg (List.take _) (laneKeystream_fst_hidden ..)
  simp only [transformBytes, hks]

/-! ### States that differ at most in the hidden registers -/

/-- A state with other hidden registers and another numbering of the free values. -/
def State.withHidden (s : State) (h : Hidden) (n : Nat) : State := { s with hidden := h, freeCount := n }

@[simp] theorem State.withHidden_data (s : State) (h : Hidden) (n : Nat) : (s.withHidden h n).data = s.data := rfl
@[simp] theorem State.withHidden_rsp (s : State) (h : Hidden) (n : Nat) : (s.withHidden h n).rsp = s.rsp := rfl
@[simp] theorem State.withHidden_port (s : State) (h : Hidden) (n : Nat) : (s.withHidden h n).port = s.port := rfl
@[simp] theorem State.withHidden_inbox (s : State) (h : Hidden) (n : Nat) : (s.withHidden h n).inbox = s.inbox := rfl

@[simp] theorem transformBytes_withHidden (tier : Tier) (s : State) (h : Hidden) (n : Nat) (d : List Byte) :
    transformBytes tier (s.withHidden h n) d = transformBytes tier s d :=
  transformBytes_eq_of_nbi (s := s.withHidden h n) (t := s) tier rfl rfl rfl d

theorem SameButHidden.exists_withHidden {s t : State} (hst : SameButHidden s t) : ∃ h n, t = s.withHidden h n :=
  ⟨_, _, hst.symm⟩

theorem SameButHidden.deliver {s t : State} (hst : SameButHidden s t) : SameButHidden s.deliver t.deliver := by
  obtain ⟨h, n, rfl⟩ := hst.exists_withHidden
  rfl

theorem SameButHidden.engineReset {s t : State} (hst : SameButHidden s t) :
    SameButHidden s.engineReset t.engineReset := by
  obtain ⟨h, n, rfl⟩ := hst.exists_withHidden
  rfl

theorem SameButHidden.settle {s t : State} (p : Transfer) (hst : SameButHidden s t) :
    SameButHidden (s.settle p) (t.settle p) := by
  obtain ⟨h, n, rfl⟩ := hst.exists_withHidden
  simp only [State.settle, State.withHidden_rsp]
  cases s.rsp with
  | none => exact hst
  | some r =>
    dsimp only
    split
    · exact hst.deliver
    · exact hst

/-! ### A command answers alike in both -/

/-- Both have a next state, and these differ at most in the hidden registers. -/
def SameNext (o o' : Host.Outcome State Fault Refusal) : Prop :=
  ∃ u v : State, o = .next u ∧ o' = .next v ∧ SameButHidden u v

theorem SameNext.raise (st : Status) {s t : State} (hst : SameButHidden s t) :
    SameNext (Machine.raise st s) (Machine.raise st t) := by
  obtain ⟨h, n, rfl⟩ := hst.exists_withHidden
  exact ⟨_, _, rfl, rfl, rfl⟩

theorem SameNext.complete {b b' : List Byte} {s t : State} (hb : b = b') (hst : SameButHidden s t) :
    SameNext (Machine.complete b s) (Machine.complete b' t) := by
  obtain ⟨h, n, rfl⟩ := hst.exists_withHidden
  subst hb
  exact ⟨_, _, rfl, rfl, rfl⟩

theorem SameNext.ite {c : Prop} [Decidable c] {a b a' b' : Host.Outcome State Fault Refusal}
    (ha : SameNext a a') (hb : SameNext b b') : SameNext (if c then a else b) (if c then a' else b') := by
  split
  · exact ha
  · exact hb

theorem setCounter_sameNext (v : Word) {s t : State} (hst : SameButHidden s t) :
    SameNext (setCounter v s) (setCounter v t) := by
  obtain ⟨h, n, rfl⟩ := hst.exists_withHidden
  exact .ite (.raise _ hst) (.ite (.raise _ hst) (.complete rfl rfl))

theorem transform_sameNext (tier : Tier) {s t : State} (hst : SameButHidden s t) :
    SameNext (transform tier s) (transform tier t) := by
  obtain ⟨h, n, rfl⟩ := hst.exists_withHidden
  exact .ite (.raise _ hst) (.ite (.complete rfl hst) (.ite (.raise _ hst)
    (.complete (transformBytes_withHidden tier s h n _).symm rfl)))

/-- No check of a command looks at the hidden registers, and no response is made from what they held before: the proof
follows the checks of each command, and a datapath that is used is loaded first. -/
theorem exec_sameNext (i : Instr) {s t : State} (hst : SameButHidden s t) : SameNext (exec i s) (exec i t) := by
  obtain ⟨h, n, rfl⟩ := hst.exists_withHidden
  cases i with
  | setctr v => exact setCounter_sameNext v hst
  | seek v => exact setCounter_sameNext v hst
  | transformRef => exact transform_sameNext _ hst
  | transformRo => exact transform_sameNext _ hst
  | transformVec => exact transform_sameNext _ hst
  | encrypt tier => exact transform_sameNext tier hst
  | decrypt tier => exact transform_sameNext tier hst
  | construct klen nlen =>
    exact .ite (.raise _ hst) (.ite (.raise _ hst) (.ite (.raise _ hst) (.complete rfl rfl)))
  | getctr => exact .ite (.raise _ hst) (.ite (.raise _ hst) (.complete rfl hst))
  | rotl x k => exact .ite (.raise _ hst) (.ite (.raise _ hst) (.complete rfl hst))
  | qround => exact .ite (.raise _ hst) (.complete rfl hst)
  | blockfn raw => exact .ite (.raise _ hst) (.complete (emit_runScalar_hidden _ _ _ _ _) rfl)
  | ksblock =>
    exact .ite (.raise _ hst) (.ite (.raise _ hst) (.ite (.raise _ hst)
      (.complete (emit_runScalar_hidden _ _ _ _ _) rfl)))
  | ksbatch =>
    exact .ite (.raise _ hst) (.ite (.raise _ hst) (.ite (.raise _ hst)
      (.complete (emit_runLanes_hidden _ _ _) rfl)))

theorem execute_sameNext (cmd imm : Word) {s t : State} (hst : SameButHidden s t) :
    SameNext (execute cmd imm s) (execute cmd imm t) := by
  unfold execute
  split
  · exact exec_sameNext _ hst
  · exact .raise _ hst

theorem runWhenFed_sameNext (p : Transfer) {s t : State} (hst : SameButHidden s t) :
    SameNext (State.runWhenFed p s) (State.runWhenFed p t) := by
  obtain ⟨h, n, rfl⟩ := hst.exists_withHidden
  exact .ite (execute_sameNext _ _ hst) ⟨_, _, rfl, rfl, hst⟩

/-! ### The port offers the same in both -/

theorem rdataSoFar_withHidden (s : State) (h : Hidden) (n : Nat) (p : Transfer) :
    (s.withHidden h n).rdataSoFar p = s.rdataSoFar p := by
  have hfail (i : Instr) : firstFailing i p.len.toNat (s.withHidden h n) = firstFailing i p.len.toNat s :=
    firstFailing_congr _ _ rfl rfl
  simp only [State.rdataSoFar, State.withHidden_rsp, State.withHidden_data, transformBytes_withHidden, hfail]

theorem doutValid_withHidden (s : State) (h : Hidden) (n : Nat) : (s.withHidden h n).doutValid = s.doutValid := by
  have hlen (p : Transfer) : (s.withHidden h n).rspLen p = s.rspLen p := rspLen_congr rfl rfl rfl rfl rfl rfl
  simp only [State.doutValid, State.withHidden_port, hlen, rdataSoFar_withHidden]

/-! ### A step ends alike in both -/

/-- Next states that differ at most in the hidden registers, or the same refusal. -/
def SameOutcome (o o' : Host.Outcome State Fault Refusal) : Prop :=
  SameNext o o' ∨ ∃ r : Refusal, o = .refused r ∧ o' = .refused r

theorem SameOutcome.next {s t : State} (hst : SameButHidden s t) : SameOutcome (.next s) (.next t) :=
  .inl ⟨s, t, rfl, rfl, hst⟩

theorem SameOutcome.refused (r : Refusal) : SameOutcome (.refused r) (.refused r) := .inr ⟨r, rfl, rfl⟩

theorem SameOutcome.ite {c : Prop} [Decidable c] {a b a' b' : Host.Outcome State Fault Refusal}
    (ha : SameOutcome a a') (hb : SameOutcome b b') : SameOutcome (if c then a else b) (if c then a' else b') := by
  split
  · exact ha
  · exact hb

theorem transact_sameOutcome (r : Request) {s t : State} (hst : SameButHidden s t) :
    SameOutcome (transact r s) (transact r t) := by
  obtain ⟨h, n, rfl⟩ := hst.exists_withHidden
  have hload : SameButHidden (s.load r.data) ((s.withHidden h n).load r.data) := rfl
  obtain ⟨u, v, hu, hv, huv⟩ := execute_sameNext r.cmd r.imm hload
  cases hp : s.port with
  | busy p => simp only [transact, State.withHidden_port, hp]; exact .refused _
  | idle =>
    simp only [transact, State.withHidden_port, hp, hu, hv]
    exact .ite (.next huv.deliver) (.refused _)

theorem requestTransfer_sameOutcome (cmd imm : Word) (len : BitVec 40) {s t : State} (hst : SameButHidden s t) :
    SameOutcome (requestTransfer cmd imm len s) (requestTransfer cmd imm len t) := by
  obtain ⟨h, n, rfl⟩ := hst.exists_withHidden
  cases hp : s.port with
  | busy p => simp only [requestTransfer, State.withHidden_port, hp]; exact .refused _
  | idle =>
    simp only [requestTransfer, State.withHidden_port, hp]
    exact .inl (runWhenFed_sameNext _ rfl)

theorem payloadTransfer_sameOutcome (b : Byte) {s t : State} (hst : SameButHidden s t) :
    SameOutcome (payloadTransfer b s) (payloadTransfer b t) := by
  obtain ⟨h, n, rfl⟩ := hst.exists_withHidden
  cases hp : s.port with
  | idle => simp only [payloadTransfer, State.withHidden_port, hp]; exact .refused _
  | busy p =>
    have hfed : SameButHidden { s with data := s.data ++ [b] }
      { s.withHidden h n with data := (s.withHidden h n).data ++ [b] } := rfl
    obtain ⟨u, v, hu, hv, huv⟩ := runWhenFed_sameNext p hfed
    simp only [State.withHidden_port, State.withHidden_data, hp] at hu hv
    simp only [payloadTransfer, State.withHidden_port, State.withHidden_data, hp, hu, hv]
    exact .ite (.next (huv.settle p)) (.refused _)

theorem responseTransfer_sameOutcome {s t : State} (hst : SameButHidden s t) :
    SameOutcome (responseTransfer s) (responseTransfer t) := by
  obtain ⟨h, n, rfl⟩ := hst.exists_withHidden
  cases hp : s.port with
  | idle => simp only [responseTransfer, State.withHidden_port, hp]; exact .refused _
  | busy p =>
    simp only [responseTransfer, State.withHidden_port, hp]
    exact .ite (.next (.settle _ rfl)) (.refused _)

theorem byteTransfer_sameOutcome {s t : State} (hst : SameButHidden s t) :
    SameOutcome (byteTransfer s) (byteTransfer t) := by
  obtain ⟨h, n, rfl⟩ := hst.exists_withHidden
  cases hp : s.port with
  | idle => simp only [byteTransfer, State.withHidden_port, hp]; exact .refused _
  | busy p =>
    simp only [byteTransfer, State.withHidden_port, hp, doutValid_withHidden]
    exact .ite (.next (.settle _ rfl)) (.refused _)

theorem handle_sameOutcome (e : HostEvent) {s t : State} (hst : SameButHidden s t) :
    SameOutcome (handle e s) (handle e t) := by
  cases e with
  | command r => exact transact_sameOutcome r hst
  | requestTransfer cmd imm len => exact requestTransfer_sameOutcome cmd imm len hst
  | payloadTransfer b => exact payloadTransfer_sameOutcome b hst
  | responseTransfer => exact responseTransfer_sameOutcome hst
  | byteTransfer => exact byteTransfer_sameOutcome hst
  | reset => exact .next hst.engineReset
  | secondRequester r => exact .refused _

theorem step_sameOutcome {s t : State} (hst : SameButHidden s t) : SameOutcome (step s) (step t) := by
  obtain ⟨h, n, rfl⟩ := hst.exists_withHidden
  cases hi : s.inbox with
  | nil => simp only [step, State.withHidden_inbox, hi]; exact .next hst
  | cons e rest =>
    simp only [step, State.withHidden_inbox, hi]
    exact handle_sameOutcome e rfl

/-- Settles O37: a step from either state ends alike (`step_sameOutcome`). -/
theorem hiddenStateIsNeverObserved : Obligations.HiddenStateIsNeverObserved := by
  unfold Obligations.HiddenStateIsNeverObserved
  intro s t hst
  obtain ⟨u, v, hu, hv, huv⟩ | ⟨r, hs, ht⟩ := step_sameOutcome hst
  · refine ⟨fun s' hs' => ?_, fun r hr => ?_⟩
    · cases hu.symm.trans hs'
      exact ⟨v, hv, huv⟩
    · cases hu.symm.trans hr
  · refine ⟨fun s' hs' => ?_, fun r' hr' => ?_⟩
    · cases hs.symm.trans hs'
    · cases hs.symm.trans hr'
      exact ht

end Sys2Proof.Machine
end

section
/-! PROOFS. The round sequencer (10_state.md R44, 40_arx.md R120). In both datapaths a round moves the sequencer by
`nextRound` and by nothing else, so the position after n rounds is found once, on the sequencer alone. -/

namespace Sys2Proof.Machine

/-- One round, seen at the sequencer: it goes on to the next round, and at rest it stays at rest. -/
def nextSeq (q : Option (Fin 10 × RoundPhase)) : Option (Fin 10 × RoundPhase) := q.bind nextRound

theorem seq_stepScalar (round : RoundPhase → Words16 → Words16) (h : Hidden) :
    (h.stepScalar round).seq = nextSeq h.seq := by
  unfold Hidden.stepScalar
  split <;> simp [nextSeq, *]

theorem seq_stepLanes (round : RoundPhase → Vector LaneVec 16 → Vector LaneVec 16) (h : Hidden) :
    (h.stepLanes round).seq = nextSeq h.seq := by
  unfold Hidden.stepLanes
  split <;> simp [nextSeq, *]

/-- The sequencer after n rounds from the start: the column phase goes to the diagonal phase of the same double round, the
diagonal phase to the column phase of the next. -/
theorem iterate_nextSeq_firstRound (n : Nat) (hn : n < 20) :
    nextSeq^[n] (some firstRound) = some (⟨n / 2, by omega⟩, if n % 2 = 0 then .column else .diagonal) := by
  induction n with
  | zero => rfl
  | succ n ih =>
    rw [Function.iterate_succ_apply', ih (by omega)]
    rcases Nat.mod_two_eq_zero_or_one n with heven | hodd
    · simp [nextSeq, nextRound, heven, show (n + 1) % 2 = 1 by omega, show (n + 1) / 2 = n / 2 by omega]
    · simp [nextSeq, nextRound, hodd, show (n + 1) % 2 = 0 by omega, show (n + 1) / 2 = n / 2 + 1 by omega,
        show n / 2 + 1 < 10 by omega]

/-- Settles O42: `iterate_nextSeq_firstRound`, carried to each datapath, and the rest after 20 rounds from the model's
`iterate_stepScalar` and `iterate_stepLanes`. -/
theorem sequencerRunsTwentyRounds : Obligations.SequencerRunsTwentyRounds := by
  unfold Obligations.SequencerRunsTwentyRounds
  intro round vround x lo h n
  have hscalar : Function.Semiconj Hidden.seq (Hidden.stepScalar round) nextSeq := seq_stepScalar round
  have hlanes : Function.Semiconj Hidden.seq (Hidden.stepLanes vround) nextSeq := seq_stepLanes vround
  have hpos := iterate_nextSeq_firstRound n.val n.isLt
  exact ⟨(hscalar.iterate_right n.val _).trans hpos, congrArg Hidden.seq (iterate_stepScalar round h x),
    (hlanes.iterate_right n.val _).trans hpos, congrArg Hidden.seq (iterate_stepLanes vround h lo)⟩

end Sys2Proof.Machine
end

section
/-! PROOFS. The second names and the illegal opcodes (30_encoding.md R94, R85). A second name has the effect and the words
of its core command, so what decodes those words never sees it; an opcode outside the opcode map falls through every test of
the decoder, whose rejection is answered with IllegalCommand. -/

namespace Sys2Proof.Machine

/-! ### A command does what its core command does -/

theorem exec_canonical (i : Instr) (s : State) : exec i.canonical s = exec i s := by
  cases i with
  | encrypt t => cases t <;> rfl
  | decrypt t => cases t <;> rfl
  | _ => rfl

theorem encode_canonical (i : Instr) : encode i.canonical = encode i := by
  cases i with
  | encrypt t => cases t <;> rfl
  | decrypt t => cases t <;> rfl
  | _ => rfl

/-- Settles O21: `exec_canonical` and `encode_canonical` at the second names, and the model's round trip of each. -/
theorem secondNamesAreTheirCoreCommands : Obligations.SecondNamesAreTheirCoreCommands :=
  ⟨fun t s => ⟨(exec_canonical (.encrypt t) s).symm, (exec_canonical (.decrypt t) s).symm⟩,
    fun v s => (exec_canonical (.seek v) s).symm,
    fun t => ⟨(encode_canonical (.encrypt t)).symm, (encode_canonical (.decrypt t)).symm, Laws.RoundTrip.encrypt t rfl⟩,
    fun v => ⟨(encode_canonical (.seek v)).symm, Laws.RoundTrip.seek v rfl⟩⟩

/-! ### Words that decode to no command -/

theorem isIllegal_of_decode_error {cmd imm : Word} {e : DecodeReject} (h : decode cmd imm = .error e) :
    IsIllegal cmd imm := by
  intro s
  simp only [execute, h, raise_eq]

theorem decode_of_unassigned_opcode {cmd : Word} (imm : Word)
    (h : opcField cmd ∉ [0x01#8, 0x02#8, 0x03#8, 0x10#8, 0x11#8, 0x12#8, 0x20#8, 0x21#8, 0x30#8]) :
    decode cmd imm = .error .unassignedOpcode := by
  simp only [List.mem_cons, List.not_mem_nil, or_false, not_or] at h
  obtain ⟨hconstruct, hsetctr, hgetctr, hrotl, hqround, hblockfn, hksblock, hksbatch, htransform⟩ := h
  rw [decode, if_neg hconstruct, if_neg hsetctr, if_neg hgetctr, if_neg hrotl, if_neg hqround, if_neg hblockfn,
    if_neg hksblock, if_neg hksbatch, if_neg htransform]

/-- Settles O24: such a word is rejected with `unassignedOpcode`, and every rejection is illegal. -/
theorem unassignedOpcodesAreIllegal : Obligations.UnassignedOpcodesAreIllegal :=
  fun _ imm h => isIllegal_of_decode_error (decode_of_unassigned_opcode imm h)

end Sys2Proof.Machine
end

section
/-! PROOFS. The words of a command (30_encoding.md R84, R91). Each format accepts exactly the words with its reserved field
clear, so whatever decodes is the encoding of what it decodes to: a well-formed core command has its words and no others, and
words that some format rejects are illegal. -/

namespace Sys2Proof.Machine

/-! ### What each format accepts -/

theorem decodeZ_eq_ok {cmd imm : Word} {i j : Instr} :
    decodeZ cmd imm i = .ok j ↔ reservedZ cmd = 0#24 ∧ imm = 0#32 ∧ i = j := by
  unfold decodeZ; split_ifs <;> simp_all

theorem decodeSetctr_eq_ok {cmd imm : Word} {j : Instr} :
    decodeSetctr cmd imm = .ok j ↔ reservedZ cmd = 0#24 ∧ .setctr imm = j := by
  unfold decodeSetctr; split_ifs <;> simp_all

theorem decodeC_eq_ok {cmd imm : Word} {j : Instr} :
    decodeC cmd imm = .ok j ↔ reservedC cmd = 0#8 ∧ imm = 0#32 ∧ .construct (klenField cmd) (nlenField cmd) = j := by
  unfold decodeC; split_ifs <;> simp_all

theorem decodeR_eq_ok {cmd imm : Word} {j : Instr} :
    decodeR cmd imm = .ok j ↔ reservedR cmd = 0#19 ∧ nField cmd ≠ 0#5 ∧ .rotl imm (nField cmd) = j := by
  unfold decodeR; split_ifs <;> simp_all

theorem decodeF_eq_ok {cmd imm : Word} {j : Instr} :
    decodeF cmd imm = .ok j ↔ reservedF cmd = 0#23 ∧ imm = 0#32 ∧ .blockfn (rawField cmd == 1#1) = j := by
  unfold decodeF; split_ifs <;> simp_all

theorem decodeT_eq_ok {cmd imm : Word} {j : Instr} :
    decodeT cmd imm = .ok j ↔
      reservedT cmd = 0#20 ∧ imm = 0#32 ∧ ∃ t : Tier, tierField cmd = t.field ∧ t.transform = j := by
  simp only [← tierOfField_some]
  unfold decodeT
  split_ifs
  · simp_all
  · simp_all
  · cases tierOfField (tierField cmd) <;> simp_all

/-! ### What decodes is what is encoded -/

theorem encode_of_decodeZ {cmd imm : Word} {i j : Instr} {o : BitVec 8} (ho : opcField cmd = o)
    (hi : encode i = (formatZ o, 0#32)) (h : decodeZ cmd imm i = .ok j) : encode j = (cmd, imm) := by
  obtain ⟨hz, rfl, rfl⟩ := decodeZ_eq_ok.1 h
  rw [hi, (formatZ_iff cmd o).1 ⟨ho, hz⟩]

/-- The TRANSFORM command of a tier is encoded with the tier's field. -/
theorem encode_transform (t : Tier) : encode t.transform = (formatT 0x30#8 t.field, 0#32) := by
  cases t <;> rfl

/-- RAW survives its way through `Bool`. -/
theorem ite_rawField (cmd : Word) : (if (rawField cmd == 1#1) = true then 1#1 else 0#1) = rawField cmd := by
  generalize rawField cmd = raw
  revert raw
  decide

/-- One case for each opcode of R84, by the words its format accepts. -/
theorem encode_of_decode {cmd imm : Word} {i : Instr} (h : decode cmd imm = .ok i) : encode i = (cmd, imm) := by
  unfold decode at h
  split at h
  next hopc =>
    obtain ⟨hres, rfl, rfl⟩ := decodeC_eq_ok.1 h
    rw [encode, ← (formatC_iff cmd _ _ _).1 ⟨hopc, hres, rfl, rfl⟩]
  split at h
  next hopc =>
    obtain ⟨hres, rfl⟩ := decodeSetctr_eq_ok.1 h
    rw [encode, ← (formatZ_iff cmd _).1 ⟨hopc, hres⟩]
  split at h
  next hopc => exact encode_of_decodeZ hopc rfl h
  split at h
  next hopc =>
    obtain ⟨hres, -, rfl⟩ := decodeR_eq_ok.1 h
    rw [encode, ← (formatR_iff cmd _ _).1 ⟨hopc, hres, rfl⟩]
  split at h
  next hopc => exact encode_of_decodeZ hopc rfl h
  split at h
  next hopc =>
    obtain ⟨hres, rfl, rfl⟩ := decodeF_eq_ok.1 h
    rw [encode, ite_rawField, ← (formatF_iff cmd _ _).1 ⟨hopc, hres, rfl⟩]
  split at h
  next hopc => exact encode_of_decodeZ hopc rfl h
  split at h
  next hopc => exact encode_of_decodeZ hopc rfl h
  split at h
  next hopc =>
    obtain ⟨hres, rfl, t, ht, rfl⟩ := decodeT_eq_ok.1 h
    rw [encode_transform, ← (formatT_iff cmd _ _).1 ⟨hopc, hres, ht⟩]
  cases h

/-- A command that its own words decode to has no other words. -/
theorem hasOnlyWords_of_encode {i : Instr} {cmd imm : Word} (hwords : encode i = (cmd, imm))
    (hdecode : decode (encode i).1 (encode i).2 = .ok i) : HasOnlyWords i cmd imm := by
  intro c m
  constructor
  · intro h
    exact Prod.ext_iff.1 ((encode_of_decode h).symm.trans hwords)
  · rintro ⟨rfl, rfl⟩
    rwa [hwords] at hdecode

/-! ### What is illegal -/

theorem isIllegal_of_forall_ne_ok {cmd imm : Word} (h : ∀ i, decode cmd imm ≠ .ok i) : IsIllegal cmd imm := by
  cases hd : decode cmd imm with
  | ok i => exact absurd hd (h i)
  | error e => exact isIllegal_of_decode_error hd

theorem isIllegal_of_decodeZ {cmd imm : Word} {i : Instr} (hformat : decode cmd imm = decodeZ cmd imm i)
    (h : reservedZ cmd ≠ 0#24 ∨ imm ≠ 0#32) : IsIllegal cmd imm := by
  refine isIllegal_of_forall_ne_ok fun j hj => ?_
  obtain ⟨hres, himm, -⟩ := decodeZ_eq_ok.1 (hformat.symm.trans hj)
  exact h.elim (· hres) (· himm)

theorem isIllegal_of_decodeR {cmd imm : Word} (hformat : decode cmd imm = decodeR cmd imm)
    (h : reservedR cmd ≠ 0#19 ∨ nField cmd = 0#5) : IsIllegal cmd imm := by
  refine isIllegal_of_forall_ne_ok fun j hj => ?_
  obtain ⟨hres, hn, -⟩ := decodeR_eq_ok.1 (hformat.symm.trans hj)
  exact h.elim (· hres) hn

theorem isIllegal_of_decodeF {cmd imm : Word} (hformat : decode cmd imm = decodeF cmd imm)
    (h : reservedF cmd ≠ 0#23 ∨ imm ≠ 0#32) : IsIllegal cmd imm := by
  refine isIllegal_of_forall_ne_ok fun j hj => ?_
  obtain ⟨hres, himm, -⟩ := decodeF_eq_ok.1 (hformat.symm.trans hj)
  exact h.elim (· hres) (· himm)

end Sys2Proof.Machine
end

section
/-! PROOFS. The mixing functions (40_arx.md R110 to R116): rotation bit by bit, the quarter round line by line, and the
rounds word by word. The four quadruples of a round share no index, so applying them in turn reads what applying them at once
reads (R115), and every word of a round is then a word of one quarter round of the array before it. -/

namespace Sys2Proof.Machine

/-! ### Rotation -/

theorem rotl32_eq_rotateLeft (x : Word) {n : Nat} (hn : n < 32) : rotl32 x n = x.rotateLeft n := by
  rw [BitVec.rotateLeft_def, Nat.mod_eq_of_lt hn, rotl32]

theorem getLsbD_rotl32 (x : Word) {n i : Nat} (hn : n < 32) (hi : i < 32) :
    (rotl32 x n).getLsbD i = x.getLsbD ((i + 32 - n) % 32) := by
  rw [rotl32_eq_rotateLeft x hn, BitVec.getLsbD_rotateLeft, Nat.mod_eq_of_lt hn]
  by_cases hwrap : i < n
  · simp [hwrap, show (i + 32 - n) % 32 = 32 - n + i by omega]
  · simp [hwrap, hi, show (i + 32 - n) % 32 = i - n by omega]

theorem rotl32_rotl32_sub (x : Word) {n : Nat} (hpos : 0 < n) (hn : n < 32) :
    rotl32 (rotl32 x n) (32 - n) = x := by
  apply BitVec.eq_of_getLsbD_eq
  intro i hi
  rw [getLsbD_rotl32 _ (by omega) hi, getLsbD_rotl32 _ hn (by omega)]
  congr 1
  omega

/-! ### The quarter round -/

theorem quarterRound_mk (a b c d : Word) :
    let a1 := a + b;   let d1 := (d ^^^ a1).rotateLeft 16
    let c1 := c + d1;  let b1 := (b ^^^ c1).rotateLeft 12
    let a2 := a1 + b1; let d2 := (d1 ^^^ a2).rotateLeft 8
    let c2 := c1 + d2; let b2 := (b1 ^^^ c2).rotateLeft 7
    quarterRound { a := a, b := b, c := c, d := d } = { a := a2, b := b2, c := c2, d := d2 } := by
  have h16 (x : Word) : rotl32 x 16 = x.rotateLeft 16 := rotl32_eq_rotateLeft x (by decide)
  have h12 (x : Word) : rotl32 x 12 = x.rotateLeft 12 := rotl32_eq_rotateLeft x (by decide)
  have h8 (x : Word) : rotl32 x 8 = x.rotateLeft 8 := rotl32_eq_rotateLeft x (by decide)
  have h7 (x : Word) : rotl32 x 7 = x.rotateLeft 7 := rotl32_eq_rotateLeft x (by decide)
  simp only [quarterRound, h16, h12, h8, h7]

/-! ### Disjoint quadruples -/

/-- The four indices of a quadruple. -/
def quadIndices (q : QuadIx) : List (Fin 16) := [q.a, q.b, q.c, q.d]

theorem getElem_writeQuad_of_notMem (w : Words16) {q : QuadIx} (v : Quad) {i : Fin 16} (h : i ∉ quadIndices q) :
    (writeQuad w q v)[i] = w[i] := by
  simp only [quadIndices, List.mem_cons, List.not_mem_nil, or_false, not_or, Fin.ext_iff] at h
  obtain ⟨ha, hb, hc, hd⟩ := h
  simp [writeQuad, Ne.symm ha, Ne.symm hb, Ne.symm hc, Ne.symm hd]

theorem readQuad_writeQuad_of_disjoint (w : Words16) {p q : QuadIx} (v : Quad) (h : ∀ i ∈ quadIndices p, i ∉ quadIndices q) :
    readQuad (writeQuad w q v) p = readQuad w p := by
  have hread (i : Fin 16) (hi : i ∈ quadIndices p) := getElem_writeQuad_of_notMem w v (h i hi)
  simp only [readQuad, hread p.a (by simp [quadIndices]), hread p.b (by simp [quadIndices]),
    hread p.c (by simp [quadIndices]), hread p.d (by simp [quadIndices])]

/-- In turn, a quadruple still reads the array from before the round, as long as only quadruples disjoint from it have been
written. -/
theorem foldl_applyQuad_eq (w acc : Words16) (qs : List QuadIx)
    (hdisjoint : qs.Pairwise fun p q => ∀ i ∈ quadIndices q, i ∉ quadIndices p)
    (hread : ∀ q ∈ qs, readQuad acc q = readQuad w q) :
    qs.foldl applyQuad acc = qs.foldl (fun acc q => writeQuad acc q (quarterRound (readQuad w q))) acc := by
  induction qs generalizing acc with
  | nil => rw [List.foldl_nil, List.foldl_nil]
  | cons p qs ih =>
    obtain ⟨hp, hqs⟩ := List.pairwise_cons.1 hdisjoint
    obtain ⟨hreadp, hreadqs⟩ := List.forall_mem_cons.1 hread
    rw [List.foldl_cons, List.foldl_cons, applyQuad, hreadp]
    exact ih _ hqs fun q hq => (readQuad_writeQuad_of_disjoint acc _ (hp q hq)).trans (hreadqs q hq)

theorem reducedRound_eq_referenceRound (p : RoundPhase) (w : Words16) : reducedRound p w = referenceRound p w :=
  (foldl_applyQuad_eq w w (phaseQuads p) (by cases p <;> decide) fun _ _ => rfl).symm

/-! ### The rounds, word by word -/

theorem colround_eq (w : Words16) :
    let q0 := quarterRound { a := w[0], b := w[4], c := w[8], d := w[12] }
    let q1 := quarterRound { a := w[1], b := w[5], c := w[9], d := w[13] }
    let q2 := quarterRound { a := w[2], b := w[6], c := w[10], d := w[14] }
    let q3 := quarterRound { a := w[3], b := w[7], c := w[11], d := w[15] }
    colround w =
      #v[q0.a, q1.a, q2.a, q3.a, q0.b, q1.b, q2.b, q3.b, q0.c, q1.c, q2.c, q3.c, q0.d, q1.d, q2.d, q3.d] := by
  intro q0 q1 q2 q3
  have hround : colround w = reducedRound .column w := (reducedRound_eq_referenceRound .column w).symm
  rw [hround]
  apply Vector.ext
  intro i hi
  interval_cases i <;> simp [reducedRound, phaseQuads, columnQuads, readQuad, writeQuad, q0, q1, q2, q3]

theorem diaground_eq (w : Words16) :
    let q0 := quarterRound { a := w[0], b := w[5], c := w[10], d := w[15] }
    let q1 := quarterRound { a := w[1], b := w[6], c := w[11], d := w[12] }
    let q2 := quarterRound { a := w[2], b := w[7], c := w[8], d := w[13] }
    let q3 := quarterRound { a := w[3], b := w[4], c := w[9], d := w[14] }
    diaground w =
      #v[q0.a, q1.a, q2.a, q3.a, q3.b, q0.b, q1.b, q2.b, q2.c, q3.c, q0.c, q1.c, q1.d, q2.d, q3.d, q0.d] := by
  intro q0 q1 q2 q3
  have hround : diaground w = reducedRound .diagonal w := (reducedRound_eq_referenceRound .diagonal w).symm
  rw [hround]
  apply Vector.ext
  intro i hi
  interval_cases i <;> simp [reducedRound, phaseQuads, diagonalQuads, readQuad, writeQuad, q0, q1, q2, q3]

/-- Settles O39: the quarter round and the two rounds by the lemmas above; the double round and the core are what their
definitions say. -/
theorem roundsMixColumnsAndDiagonals : Obligations.RoundsMixColumnsAndDiagonals :=
  ⟨quarterRound_mk, fun w => ⟨colround_eq w, diaground_eq w, rfl, rfl⟩⟩

end Sys2Proof.Machine
end

section
/-! PROOFS. The diagnostic commands ROTL, QROUND and BLOCKFN (40_arx.md R121 to R125). A payload that is the bytes of some
words is read back as those words, so each command answers its mixing function of them. -/

namespace Sys2Proof.Machine

/-! ### A payload made of words -/

theorem serWords_append (vs ws : List Word) : serWords (vs ++ ws) = serWords vs ++ serWords ws := List.flatMap_append

theorem le32_serWords (ws : List Word) {j : Nat} (hj : j < ws.length) : le32 (serWords ws) (4 * j) = ws[j] := by
  have hsplit : serWords ws = serWords (ws.take j) ++ ser32 ws[j] ++ serWords (ws.drop (j + 1)) := by
    rw [List.append_assoc, ← serWords_cons, ← serWords_append, ← List.drop_eq_getElem_cons, List.take_append_drop]
  have hplace : (serWords (ws.take j)).length = 4 * j := by rw [length_serWords, List.length_take_of_le hj.le]
  rw [hsplit, ← hplace, le32_ser32]

theorem payloadQuad_serWords (a b c d : Word) :
    payloadQuad (serWords [a, b, c, d]) = { a := a, b := b, c := c, d := d } := by
  have hword {j : Nat} (hj : j < 4) := le32_serWords [a, b, c, d] hj
  simp only [payloadQuad, Quad.mk.injEq]
  exact ⟨hword (j := 0) (by decide), hword (j := 1) (by decide), hword (j := 2) (by decide), hword (j := 3) (by decide)⟩

theorem payloadWords_serWords {n : Nat} (x : Vector Word n) : payloadWords n 0 (serWords x.toList) = x := by
  apply Vector.ext
  intro i hi
  have hword := le32_serWords x.toList (j := i) (by rwa [Vector.length_toList])
  rw [payloadWords, Vector.getElem_ofFn, Nat.zero_add, hword, Vector.getElem_toList]

theorem serQuad_eq_serWords (q : Quad) : serQuad q = serWords [q.a, q.b, q.c, q.d] := by
  simp [serQuad, serWords]

/-! ### ROTL -/

theorem decode_of_opcode_rotl {cmd : Word} (imm : Word) (hopc : opcField cmd = 0x10#8) :
    decode cmd imm = decodeR cmd imm := by
  simp [decode, hopc]

theorem exec_rotl_of_nil {x : Word} {n : BitVec 5} {s : State} (hn : n ≠ 0#5) (hd : s.data = []) :
    exec (.rotl x n) s = .next (s.answer .ok (ser32 (rotl32 x n.toNat))) := by
  simp [exec, execRotl, hn, hd, complete_eq]

theorem exec_rotl_of_ne_nil {x : Word} {n : BitVec 5} {s : State} (hn : n ≠ 0#5) (hd : s.data ≠ []) :
    exec (.rotl x n) s = .next (s.answer .malformedPayload []) := by
  simp [exec, execRotl, hn, hd, raise_eq]

/-- Settles O15: the words from the round trip, and the bits of the answer from `getLsbD_rotl32`. -/
theorem rotlMovesBitsCircularly : Obligations.RotlMovesBitsCircularly := by
  unfold Obligations.RotlMovesBitsCircularly
  intro x n s hn
  have hwf : (Instr.rotl x n).wellFormed = true := bne_iff_ne.2 hn
  refine ⟨hasOnlyWords_of_encode rfl (Laws.RoundTrip.rotl x n hwf),
    fun _ imm hopc => isIllegal_of_decodeR (decode_of_opcode_rotl imm hopc),
    exec_rotl_of_ne_nil hn, fun hd => ⟨rotl32 x n.toNat, fun i hi => getLsbD_rotl32 x n.isLt hi, exec_rotl_of_nil hn hd⟩⟩

/-- Settles O50: both commands answer a rotation, and `rotl32_rotl32_sub` composes them. -/
theorem rotlTwiceReturnsTheWord : Obligations.RotlTwiceReturnsTheWord := by
  unfold Obligations.RotlTwiceReturnsTheWord
  intro x n s hn hd
  have hlt : n.toNat < 32 := n.isLt
  have hpos : 0 < n.toNat := Nat.pos_of_ne_zero fun h => hn (BitVec.eq_of_toNat_eq h)
  have hback : (BitVec.ofNat 5 (32 - n.toNat)).toNat = 32 - n.toNat := by
    rw [BitVec.toNat_ofNat, Nat.mod_eq_of_lt (by omega)]
  have hback_ne : BitVec.ofNat 5 (32 - n.toNat) ≠ 0#5 := by
    intro h
    rw [h, BitVec.toNat_zero] at hback
    omega
  refine ⟨rotl32 x n.toNat, _, _, exec_rotl_of_nil hn hd, rfl, exec_rotl_of_nil hback_ne rfl, ?_⟩
  rw [State.answer_rsp, hback, rotl32_rotl32_sub x hpos hlt]

/-! ### QROUND -/

theorem decode_of_opcode_qround {cmd : Word} (imm : Word) (hopc : opcField cmd = 0x11#8) :
    decode cmd imm = decodeZ cmd imm .qround := by
  simp [decode, hopc]

theorem exec_qround_of_length_ne {s : State} (hlen : s.data.length ≠ 16) :
    exec .qround s = .next (s.answer .malformedPayload []) := by
  simp [exec, execQround, hlen, raise_eq]

theorem exec_qround_of_words {a b c d : Word} {s : State} (hd : s.data = serWords [a, b, c, d]) :
    exec .qround s = .next (s.answer .ok (serQuad (quarterRound { a := a, b := b, c := c, d := d }))) := by
  simp [exec, execQround, hd, payloadQuad_serWords, complete_eq]

/-- Settles O16: the payload is the bytes of the four words, and `quarterRound_mk` gives the twelve lines. -/
theorem qroundMixesFourWords : Obligations.QroundMixesFourWords := by
  unfold Obligations.QroundMixesFourWords
  intro a b c d s
  refine ⟨hasOnlyWords_of_encode rfl (Laws.RoundTrip.qround rfl),
    fun _ imm hopc => isIllegal_of_decodeZ (decode_of_opcode_qround imm hopc),
    exec_qround_of_length_ne, fun hd => ?_⟩
  have hwords : s.data = serWords [a, b, c, d] := hd.trans (serQuad_eq_serWords { a := a, b := b, c := c, d := d })
  rw [exec_qround_of_words hwords, quarterRound_mk]
  rfl

/-! ### BLOCKFN -/

theorem decode_of_opcode_blockfn {cmd : Word} (imm : Word) (hopc : opcField cmd = 0x12#8) :
    decode cmd imm = decodeF cmd imm := by
  simp [decode, hopc]

theorem feedForward_eq_ofFn (x y : Words16) : feedForward x y = Vector.ofFn fun i : Fin 16 => y[i] + x[i] := by
  apply Vector.ext
  intro i hi
  simp [feedForward]

theorem emit_runScalar_referenceRound (raw : Bool) (x : Words16) (h : Hidden) :
    (h.runScalar referenceRound raw x).emit =
      serWords (Vector.ofFn fun i : Fin 16 => if raw then (core20 x)[i] else (core20 x)[i] + x[i]).toList := by
  rw [Hidden.emit, runScalar_eq, iterate_referenceRound]
  generalize core20 x = y
  cases raw with
  | true => simp
  | false => simp [feedForward_eq_ofFn]

theorem exec_blockfn_of_length_ne {raw : Bool} {s : State} (hlen : s.data.length ≠ 64) :
    exec (.blockfn raw) s = .next (s.answer .malformedPayload []) := by
  simp [exec, execBlockfn, Config.blockBytes, hlen, raise_eq]

theorem exec_blockfn_of_words {raw : Bool} {x : Words16} {s : State} (hd : s.data = serWords x.toList) :
    exec (.blockfn raw) s =
      .next (State.answer { s with hidden := s.hidden.runScalar referenceRound raw x } .ok
        (s.hidden.runScalar referenceRound raw x).emit) := by
  simp [exec, execBlockfn, Config.blockBytes, hd, payloadWords_serWords, complete_eq]

/-- Settles O17: the payload is the bytes of the sixteen words, and `emit_runScalar_referenceRound` says what the datapath
makes of them. -/
theorem blockfnComputesTheCore : Obligations.BlockfnComputesTheCore := by
  unfold Obligations.BlockfnComputesTheCore
  intro raw x s
  have hwords : encode (.blockfn raw) = (if raw then 0x12000001#32 else 0x12000000#32, 0#32) := by cases raw <;> rfl
  refine ⟨hasOnlyWords_of_encode hwords (Laws.RoundTrip.blockfn raw rfl),
    fun _ imm hopc => isIllegal_of_decodeF (decode_of_opcode_blockfn imm hopc),
    exec_blockfn_of_length_ne, fun hd => ⟨s.hidden.runScalar referenceRound raw x, ?_⟩⟩
  rw [exec_blockfn_of_words hd, emit_runScalar_referenceRound]

end Sys2Proof.Machine
end

section
/-! PROOFS. The keystream of every tier (41_block_engine.md R142, 42_lane_engine.md R160 to R163, 43_stream.md R182). On the
scalar datapaths a block is the block function of its cipher state; on the lane engine each lane computes one, and a batch
emits the eight in counter order. So n blocks are the same bytes at every tier. -/

namespace Sys2Proof.Machine

/-! ### The scalar datapaths -/

theorem scalarKeystream_reduced (s : State) (n : Nat) (t : Word) (h : Hidden) :
    (scalarKeystream reducedRound s n t h).1 = s.blocks t n := by
  have hround : reducedRound = referenceRound := funext fun p => funext (reducedRound_eq_referenceRound p)
  rw [hround, scalarKeystream_reference]

/-! ### The lane engine -/

/-- A lane sees its ten double rounds alone, and they are the core of its words. -/
theorem laneView_iterate_laneRound (lo : Vector LaneVec 16) (l : Fin 8) :
    laneView (Nat.iterate (fun v => laneRound .diagonal (laneRound .column v)) 10 lo) l = core20 (laneView lo l) := by
  have hlane : Function.Semiconj (laneView · l) (fun v => laneRound .diagonal (laneRound .column v))
      (fun w => referenceRound .diagonal (referenceRound .column w)) := fun v => by
    simp only [laneView_laneRound, reducedRound_eq_referenceRound]
  rw [← iterate_referenceRound]
  exact hlane.iterate_right 10 lo

theorem laneView_zipWith_vadd (u v : Vector LaneVec 16) (l : Fin 8) :
    laneView (Vector.zipWith vadd u v) l = feedForward (laneView v l) (laneView u l) := by
  apply Vector.ext
  intro i hi
  simp [feedForward, vadd]

/-- A batch is serialized lane by lane. -/
theorem serWords_laneWords (z : Vector LaneVec 16) :
    serWords (laneWords z) = (List.finRange 8).flatMap fun l => serWords (laneView z l).toList := by
  simp only [serWords, laneWords, laneView, Vector.toList_ofFn, List.ofFn_eq_map, List.flatMap_assoc]

/-- A batch emits the blocks of its eight lanes in counter order. -/
theorem emit_runLanes (s : State) (t : Word) (h : Hidden) :
    (h.runLanes (laneOriginals s t)).emit = s.blocks t 8 := by
  rw [Hidden.emit, runLanes_eq, serWords_laneWords]
  simp only [laneView_zipWith_vadd, laneView_iterate_laneRound, laneView_laneOriginals]
  simp only [State.blocks, State.block, blockOf, ← List.map_coe_finRange_eq_range, List.flatMap_map]

theorem laneKeystream_eq_blocks (s : State) (m : Nat) (t : Word) (h : Hidden) :
    (laneKeystream s m t h).1 = s.blocks t (8 * m) := by
  induction m generalizing t h with
  | zero => rfl
  | succ m ih => rw [laneKeystream, emit_runLanes, ih, Nat.mul_succ, Nat.add_comm, blocks_add]

theorem take_blocks (s : State) (t : Word) {m n : Nat} (hle : n ≤ m) :
    (s.blocks t m).take (64 * n) = s.blocks t n := by
  obtain ⟨k, rfl⟩ := Nat.exists_eq_add_of_le hle
  rw [blocks_add, List.take_left' (length_blocks s t n)]

/-! ### Any tier -/

theorem tierKeystream_eq_blocks (tier : Tier) (s : State) (t : Word) (n : Nat) :
    (tierKeystream tier s t n).1 = s.blocks t n := by
  cases tier with
  | reference => exact scalarKeystream_reference s n t s.hidden
  | reduced => exact scalarKeystream_reduced s n t s.hidden
  | vectorized =>
    rw [tierKeystream, laneKeystream_eq_blocks]
    exact take_blocks s t (by omega)

/-- NBI modulo 2^32 is CTR, also when the engine is exhausted. -/
theorem ofNat_nbi (s : State) : BitVec.ofNat 32 s.nbi = s.ctr := by
  apply BitVec.eq_of_toNat_eq
  rw [BitVec.toNat_ofNat, State.nbi, Nat.mul_add_mod, Nat.mod_eq_of_lt s.ctr.isLt]

theorem transformBytes_eq_xorBytes (tier : Tier) (s : State) (d : List Byte) :
    transformBytes tier s d = xorBytes d (s.blocks s.ctr (blocksFor d.length)) := by
  rw [transformBytes, transformKeystream, tierKeystream_eq_blocks, ofNat_nbi]

end Sys2Proof.Machine
end

section
/-! PROOFS. The block engine and KSBLOCK (41_block_engine.md R142, R144, R147, R148). A block is its core plus itself, byte by
byte in place; KSBLOCK answers the block of CTR, which is what TRANSFORM makes of 64 zero bytes, and both are refused
together. -/

namespace Sys2Proof.Machine

/-! ### The bytes of a block -/

theorem blockOf_eq (x : Words16) :
    blockOf x = serWords (Vector.ofFn fun i : Fin 16 => (core20 x)[i] + x[i]).toList := by
  rw [blockOf, feedForward_eq_ofFn]

theorem byteAt_serWords (ws : List Word) {k : Nat} (hk : k / 4 < ws.length) :
    byteAt (serWords ws) k = ws[k / 4].extractLsb' (8 * (k % 4)) 8 := by
  have hbyte := extractLsb'_le32 (serWords ws) (4 * (k / 4)) ⟨k % 4, Nat.mod_lt k (by decide)⟩
  rwa [le32_serWords ws hk, Nat.div_add_mod, eq_comm] at hbyte

/-- Settles O40: the cipher state is what its definition lists, and the block is `blockOf_eq` of it. -/
theorem blockIsTheCoreOfTheCipherState : Obligations.BlockIsTheCoreOfTheCipherState :=
  fun s t => ⟨rfl, blockOf_eq (s.cipher t)⟩

/-- Settles O52: the byte from `byteAt_serWords`, the word it is part of from `blockOf_eq`. -/
theorem serializerPlacesEveryByte : Obligations.SerializerPlacesEveryByte := by
  unfold Obligations.SerializerPlacesEveryByte
  intro x
  refine ⟨length_blockOf x, fun k => ?_⟩
  have hword : k.val / 4 < 16 := by omega
  rw [blockOf_eq, byteAt_serWords _ (by rwa [Vector.length_toList]), Vector.getElem_toList, Vector.getElem_ofFn]
  rfl

/-! ### The counter's step -/

/-- One more block is one too many exactly when the engine is exhausted. -/
theorem nbi_add_one_le_iff (s : State) : s.nbi + 1 ≤ 2 ^ 32 ↔ s.exh = false := by
  have hlt := s.ctr.isLt
  rw [State.nbi]
  cases s.exh with
  | false => simp [flagNat]; omega
  | true => simp [flagNat]

theorem advance_one_of_not_exh {s : State} (h : s.exh = false) :
    s.advance 1 = { s with ctr := s.ctr + 1#32, exh := decide (s.ctr = 0xFFFFFFFF#32) } := by
  have hctr : BitVec.ofNat 32 (s.nbi + 1) = s.ctr + 1#32 := by rw [BitVec.ofNat_add, ofNat_nbi]
  have hlast : s.nbi + 1 = 2 ^ 32 ↔ s.ctr = 0xFFFFFFFF#32 := by
    rw [nbi_of_not_exh h, ← BitVec.toNat_inj, BitVec.toNat_ofNat]
    omega
  simp only [advance_eq s ((nbi_add_one_le_iff s).2 h), hctr, hlast]

theorem advance_load (s : State) (d : List Byte) (n : Nat) : (s.load d).advance n = (s.advance n).load d := by
  rw [State.advance, State.load_nbi]
  rfl

theorem registers_answer_hidden (s : State) (h : Hidden) (st : Status) (b : List Byte) :
    (State.answer { s with hidden := h } st b).registers = s.registers := rfl

/-! ### KSBLOCK -/

theorem decode_of_opcode_ksblock {cmd : Word} (imm : Word) (hopc : opcField cmd = 0x20#8) :
    decode cmd imm = decodeZ cmd imm .ksblock := by
  simp [decode, hopc]

theorem exec_ksblock_of_ne_nil {s : State} (hd : s.data ≠ []) :
    exec .ksblock s = .next (s.answer .malformedPayload []) := by
  simp [exec, execKsblock, hd, raise_eq]

theorem exec_ksblock_of_not_kv {s : State} (hd : s.data = []) (hk : s.kv = false) :
    exec .ksblock s = .next (s.answer .notConstructed []) := by
  simp [exec, execKsblock, hd, hk, raise_eq]

theorem exec_ksblock_of_exh {s : State} (hd : s.data = []) (hk : s.kv = true) (he : s.exh = true) :
    exec .ksblock s = .next (s.answer .counterOverflow []) := by
  simp [exec, execKsblock, hd, hk, he, raise_eq]

theorem exec_ksblock_of_ready {s : State} (hd : s.data = []) (hk : s.kv = true) (he : s.exh = false) :
    exec .ksblock s =
      .next (State.answer
        { s.advance 1 with hidden := s.hidden.runScalar referenceRound false (s.cipher s.ctr) } .ok (s.block s.ctr)) := by
  simp [exec, execKsblock, hd, hk, he, complete_eq, emit_runScalar_reference, State.block]

/-- Settles O18: the words from the round trip, one lemma per check, and the counter from `advance_one_of_not_exh`. -/
theorem ksblockProducesTheNextBlock : Obligations.KsblockProducesTheNextBlock := by
  unfold Obligations.KsblockProducesTheNextBlock
  intro s
  refine ⟨hasOnlyWords_of_encode rfl (Laws.RoundTrip.ksblock rfl),
    fun _ imm hopc => isIllegal_of_decodeZ (decode_of_opcode_ksblock imm hopc),
    exec_ksblock_of_ne_nil, exec_ksblock_of_not_kv, exec_ksblock_of_exh,
    fun hd hk he => ⟨s.hidden.runScalar referenceRound false (s.cipher s.ctr), ?_⟩⟩
  rw [exec_ksblock_of_ready hd hk he, advance_one_of_not_exh he]

/-! ### KSBLOCK and TRANSFORM -/

theorem exec_transform (tier : Tier) (s : State) : exec tier.transform s = transform tier s :=
  exec_of_transformTier (by cases tier <;> rfl) s

theorem xorBytes_zeros (ks : List Byte) : xorBytes (List.replicate ks.length 0#8) ks = ks := by
  induction ks with
  | nil => rfl
  | cons k ks ih =>
    rw [List.length_cons, List.replicate_succ, xorBytes, List.zipWith_cons_cons, BitVec.zero_xor]
    exact congrArg (k :: ·) ih

theorem transformBytes_zeros (tier : Tier) (s : State) :
    transformBytes tier s (List.replicate 64 0#8) = s.block s.ctr := by
  have hone : s.blocks s.ctr 1 = s.block s.ctr := by simp [State.blocks]
  have hxor := xorBytes_zeros (s.block s.ctr)
  rw [length_block] at hxor
  rw [transformBytes_eq_xorBytes, List.length_replicate, show blocksFor 64 = 1 from rfl, hone, hxor]

/-- Settles O47: each outcome of the TRANSFORM (`transform_cases`) is matched by KSBLOCK under the same condition. -/
theorem ksblockEqualsTransformOfZeros : Obligations.KsblockEqualsTransformOfZeros := by
  unfold Obligations.KsblockEqualsTransformOfZeros
  intro tier s
  have hcases := transform_cases tier (s.load (List.replicate 64 0#8))
  have hneed : blocksFor (s.load (List.replicate 64 0#8)).data.length = 1 := by
    rw [State.load_data, List.length_replicate]
    rfl
  rw [hneed, State.load_nbi] at hcases
  simp only [exec_transform]
  obtain ⟨hk, ht⟩ | ⟨-, hd, -⟩ | ⟨hk, -, hover, ht⟩ | ⟨hk, -, hfits, ht⟩ := hcases
  · exact ⟨_, _, exec_ksblock_of_not_kv rfl hk, ht, rfl, rfl⟩
  · exact absurd hd (List.cons_ne_nil _ _)
  · have he : s.exh = true := by
      rw [← not_le, nbi_add_one_le_iff] at hover
      exact Bool.eq_true_of_not_eq_false hover
    exact ⟨_, _, exec_ksblock_of_exh rfl hk he, ht, rfl, rfl⟩
  · have he : s.exh = false := (nbi_add_one_le_iff s).1 hfits
    refine ⟨_, _, exec_ksblock_of_ready rfl hk he, ht, ?_, ?_⟩
    · rw [State.answer_rsp, State.answer_rsp, State.load_data, transformBytes_zeros]
      rfl
    · rw [registers_answer_hidden, registers_answer_hidden, advance_load, advance_load, State.load_registers,
        State.load_registers]

end Sys2Proof.Machine
end

section
/-! PROOFS. The lane engine and KSBATCH (42_lane_engine.md R163 to R165). A batch emits the eight blocks from its base
counter (`emit_runLanes`), KSBATCH answers the batch of CTR, and eight KSBLOCKs walk over the same counters one by one,
each leaving the engine ready for the next. -/

namespace Sys2Proof.Machine

/-- Settles O43: the batch and the scalar keystream are equal as a whole, so every prefix is. -/
theorem lanesEqualTheScalarKeystream : Obligations.LanesEqualTheScalarKeystream :=
  fun s t h k _ => congrArg (List.take k) (emit_runLanes s t h)

/-! ### The counter's step -/

theorem ofNat_nbi_add (s : State) (n : Nat) : BitVec.ofNat 32 (s.nbi + n) = s.ctr + BitVec.ofNat 32 n := by
  rw [BitVec.ofNat_add, ofNat_nbi]

theorem nbi_advance {s : State} {n : Nat} (h : s.nbi + n ≤ 2 ^ 32) : (s.advance n).nbi = s.nbi + n := nbi_setNbi s h

theorem advance_zero {s : State} (h : s.nbi ≤ 2 ^ 32) : s.advance 0 = s := by
  have hexh : decide (s.nbi = 2 ^ 32) = s.exh := by
    have hlast := nbi_add_one_le_iff s
    cases he : s.exh with
    | false => simp only [he, iff_true] at hlast; exact decide_eq_false (by omega)
    | true => simp only [he, Bool.true_eq_false, iff_false] at hlast; exact decide_eq_true (by omega)
  rw [advance_eq s h, ofNat_nbi_add, Nat.add_zero, hexh, BitVec.add_zero]

theorem advance_advance {s : State} {m : Nat} (n : Nat) (h : s.nbi + m ≤ 2 ^ 32) :
    (s.advance m).advance n = s.advance (m + n) := by
  rw [State.advance, nbi_advance h, Nat.add_assoc]
  rfl

theorem advance_eight_of_fits {s : State} (he : s.exh = false) (hfits : s.ctr.toNat ≤ 0xFFFFFFF8) :
    s.advance 8 = { s with ctr := s.ctr + 8#32, exh := decide (s.ctr = 0xFFFFFFF8#32) } := by
  have hnbi := nbi_of_not_exh he
  have hlast : s.nbi + 8 = 2 ^ 32 ↔ s.ctr = 0xFFFFFFF8#32 := by
    rw [hnbi, ← BitVec.toNat_inj, BitVec.toNat_ofNat]
    omega
  simp only [advance_eq s (n := 8) (by omega), ofNat_nbi_add, hlast]

/-! ### KSBATCH -/

theorem decode_of_opcode_ksbatch {cmd : Word} (imm : Word) (hopc : opcField cmd = 0x21#8) :
    decode cmd imm = decodeZ cmd imm .ksbatch := by
  simp [decode, hopc]

theorem exec_ksbatch_of_ne_nil {s : State} (hd : s.data ≠ []) :
    exec .ksbatch s = .next (s.answer .malformedPayload []) := by
  simp [exec, execKsbatch, hd, raise_eq]

theorem exec_ksbatch_of_not_kv {s : State} (hd : s.data = []) (hk : s.kv = false) :
    exec .ksbatch s = .next (s.answer .notConstructed []) := by
  simp [exec, execKsbatch, hd, hk, raise_eq]

/-- The check of R164 read as numbers. -/
theorem ctr_gt_iff (s : State) : s.ctr > 0xFFFFFFF8#32 ↔ 0xFFFFFFF8 < s.ctr.toNat := BitVec.lt_def

theorem exec_ksbatch_of_overflow {s : State} (hd : s.data = []) (hk : s.kv = true)
    (hover : s.exh = true ∨ 0xFFFFFFF8 < s.ctr.toNat) : exec .ksbatch s = .next (s.answer .counterOverflow []) := by
  simp [exec, execKsbatch, hd, hk, ctr_gt_iff, if_pos hover, raise_eq]

theorem exec_ksbatch_of_fits {s : State} (hd : s.data = []) (hk : s.kv = true) (he : s.exh = false)
    (hfits : s.ctr.toNat ≤ 0xFFFFFFF8) :
    exec .ksbatch s =
      .next (State.answer
        { s.advance 8 with hidden := s.hidden.runLanes (laneOriginals s s.ctr) } .ok (s.blocks s.ctr 8)) := by
  simp [exec, execKsbatch, hd, hk, he, ctr_gt_iff, hfits, emit_runLanes, complete_eq]

theorem blocks_eight (s : State) (t : Word) :
    s.blocks t 8 =
      s.block t ++ s.block (t + 1#32) ++ s.block (t + 2#32) ++ s.block (t + 3#32) ++
        s.block (t + 4#32) ++ s.block (t + 5#32) ++ s.block (t + 6#32) ++ s.block (t + 7#32) := by
  simp [State.blocks, List.range_succ]

/-- Settles O19: the words from the round trip, one lemma per check, and the counter from `advance_eight_of_fits`. -/
theorem ksbatchProducesEightBlocks : Obligations.KsbatchProducesEightBlocks := by
  unfold Obligations.KsbatchProducesEightBlocks
  intro s
  refine ⟨hasOnlyWords_of_encode rfl (Laws.RoundTrip.ksbatch rfl),
    fun _ imm hopc => isIllegal_of_decodeZ (decode_of_opcode_ksbatch imm hopc),
    exec_ksbatch_of_ne_nil, exec_ksbatch_of_not_kv, exec_ksbatch_of_overflow,
    fun hd hk he hfits => ⟨s.hidden.runLanes (laneOriginals s s.ctr), ?_⟩⟩
  rw [exec_ksbatch_of_fits hd hk he hfits, advance_eight_of_fits he hfits, blocks_eight]

/-! ### Keystream requests at the port -/

theorem transact_of_execute {s t : State} {r : Request} (hp : s.port = .idle) (hlen : r.data.length < 2 ^ 40)
    (ht : execute r.cmd r.imm (s.load r.data) = .next t) : transact r s = .next t.deliver := by
  simp only [transact, hp, Config.lenBits, if_pos hlen, ht]

theorem step_of_exec {s t : State} {r : Request} {rest : List HostEvent} {i : Instr} (hp : s.port = .idle)
    (hq : s.inbox = .command r :: rest) (hlen : r.data.length < 2 ^ 40) (hi : decode r.cmd r.imm = .ok i)
    (ht : exec i (State.load { s with inbox := rest } r.data) = .next t) : step s = .next t.deliver := by
  rw [step_cons hq, handle]
  refine transact_of_execute hp hlen ?_
  rw [execute, hi]
  exact ht

/-- A request of n keystream blocks has been answered with `b`: the counter is past the blocks, the response is delivered,
and the actions `rest` are still to come. -/
def State.served (s : State) (rest : List HostEvent) (n : Nat) (b : List Byte) : State :=
  State.deliver (State.answer { s.advance n with inbox := rest } .ok b)

/-- Delivery forgets DATA and the hidden registers, all that the execution left beside the counter and the response. -/
theorem deliver_answer_advance_load (s : State) (rest : List HostEvent) (d : List Byte) (n : Nat) (h : Hidden)
    (b : List Byte) :
    (State.answer { (State.load { s with inbox := rest } d).advance n with hidden := h } .ok b).deliver =
      s.served rest n b := rfl

theorem block_load_inbox (s : State) (q : List HostEvent) (d : List Byte) (t : Word) :
    (State.load { s with inbox := q } d).block t = s.block t := rfl

theorem blocks_load_inbox (s : State) (q : List HostEvent) (d : List Byte) (t : Word) (n : Nat) :
    (State.load { s with inbox := q } d).blocks t n = s.blocks t n := rfl

theorem step_ksblock {s : State} {rest : List HostEvent} (hp : s.port = .idle) (hk : s.kv = true)
    (he : s.exh = false) (hq : s.inbox = .command ksblockRequest :: rest) :
    step s = .next (s.served rest 1 (s.block s.ctr)) := by
  have hexec := exec_ksblock_of_ready (s := State.load { s with inbox := rest } []) rfl hk he
  rw [State.load_ctr, block_load_inbox] at hexec
  rw [step_of_exec hp hq (by decide) rfl hexec, deliver_answer_advance_load]

theorem step_ksbatch {s : State} {rest : List HostEvent} (hp : s.port = .idle) (hk : s.kv = true)
    (he : s.exh = false) (hfits : s.ctr.toNat ≤ 0xFFFFFFF8) (hq : s.inbox = .command ksbatchRequest :: rest) :
    step s = .next (s.served rest 8 (s.blocks s.ctr 8)) := by
  have hexec := exec_ksbatch_of_fits (s := State.load { s with inbox := rest } []) rfl hk he hfits
  rw [State.load_ctr, blocks_load_inbox] at hexec
  rw [step_of_exec hp hq (by decide) rfl hexec, deliver_answer_advance_load]

/-! ### Eight blocks one by one -/

section
variable (s : State) (rest : List HostEvent) (n : Nat) (b : List Byte)

@[simp] theorem State.served_outbox : (s.served rest n b).outbox = s.outbox ++ [{ status := .ok, rdata := b }] := rfl
@[simp] theorem State.served_ctr : (s.served rest n b).ctr = s.ctr + BitVec.ofNat 32 n := ofNat_nbi_add s n
@[simp] theorem State.served_blocks (t : Word) (m : Nat) : (s.served rest n b).blocks t m = s.blocks t m := rfl
@[simp] theorem State.served_advance_registers (m : Nat) :
    ((s.served rest n b).advance m).registers = ((s.advance n).advance m).registers := rfl

end

/-- As long as the counters last, each KSBLOCK delivers one block and the next begins at the counter after it. -/
theorem runSteps_ksblocks (n : Nat) {s : State} (hp : s.port = .idle) (hk : s.kv = true) (hfits : s.nbi + n ≤ 2 ^ 32)
    (hq : s.inbox = List.replicate n (.command ksblockRequest)) :
    ∃ (v : State) (rs : List Response), runSteps n s = .next v ∧ v.registers = (s.advance n).registers ∧
      v.outbox = s.outbox ++ rs ∧ rs.length = n ∧ (∀ r ∈ rs, r.status = .ok ∧ r.rdata.length = 64) ∧
      rs.flatMap Response.rdata = s.blocks s.ctr n := by
  induction n generalizing s with
  | zero => exact ⟨s, [], rfl, by rw [advance_zero hfits], (List.append_nil _).symm, rfl, by simp, rfl⟩
  | succ n ih =>
    have hfits1 : s.nbi + 1 ≤ 2 ^ 32 := by omega
    have hstep := step_ksblock hp hk ((nbi_add_one_le_iff s).1 hfits1) hq
    have hrest : (s.advance 1).nbi + n ≤ 2 ^ 32 := by rw [nbi_advance hfits1]; omega
    obtain ⟨v, rs, hrun, hregs, hout, hlen, hok, hbytes⟩ := ih (s := s.served _ 1 (s.block s.ctr)) rfl hk hrest rfl
    refine ⟨v, { status := .ok, rdata := s.block s.ctr } :: rs, ?_, ?_, ?_, ?_, ?_, ?_⟩
    · simp only [runSteps, hstep, hrun]
    · rw [hregs, State.served_advance_registers, advance_advance n hfits1, Nat.add_comm]
    · rw [hout, State.served_outbox, List.append_assoc, List.singleton_append]
    · rw [List.length_cons, hlen]
    · exact List.forall_mem_cons.2 ⟨⟨rfl, length_block s s.ctr⟩, hok⟩
    · rw [List.flatMap_cons, hbytes, State.served_blocks, State.served_ctr, blocks_succ]

/-- Settles O46: one KSBATCH (`step_ksbatch`) and eight KSBLOCKs (`runSteps_ksblocks`) deliver the same eight blocks and
advance the counter by eight. -/
theorem batchEqualsEightKsblocks : Obligations.BatchEqualsEightKsblocks := by
  unfold Obligations.BatchEqualsEightKsblocks
  intro s hp hk he hfits
  have hnbi : s.nbi + 8 ≤ 2 ^ 32 := by rw [nbi_of_not_exh he]; omega
  have hbatch := step_ksbatch (s := { s with inbox := [.command ksbatchRequest] }) hp hk he hfits rfl
  obtain ⟨v, rs, hrun, hregs, hout, hlen, hok, hbytes⟩ :=
    runSteps_ksblocks 8 (s := { s with inbox := List.replicate 8 (.command ksblockRequest) }) hp hk hnbi rfl
  refine ⟨_, v, rs, hbatch, hrun, hout, hlen, hok, ?_, hregs.symm⟩
  rw [hbytes, State.served_outbox]
  rfl

end Sys2Proof.Machine
end

section
/-! PROOFS. TRANSFORM and the counter of the keystream commands (43_stream.md R180 to R187). TRANSFORM combines byte k of the
data with byte k mod 64 of block k div 64, whatever the tier; a second one from the same counter undoes the first. Every
keystream command makes the same checks in the same order, so what each can do is said once, by the blocks it needs. -/

namespace Sys2Proof.Machine

/-! ### Data combined with keystream, byte by byte -/

theorem length_xorBytes {d ks : List Byte} (hle : d.length ≤ ks.length) : (xorBytes d ks).length = d.length := by
  rw [xorBytes, List.length_zipWith, Nat.min_eq_left hle]

theorem byteAt_eq_getElem {d : List Byte} {k : Nat} (hk : k < d.length) : byteAt d k = d[k] := by
  rw [byteAt, List.getD_eq_getElem d _ hk]

theorem byteAt_xorBytes {d ks : List Byte} {k : Nat} (hk : k < d.length) (hle : d.length ≤ ks.length) :
    byteAt (xorBytes d ks) k = byteAt d k ^^^ byteAt ks k := by
  have hx : k < (xorBytes d ks).length := by rwa [length_xorBytes hle]
  rw [byteAt_eq_getElem hx, byteAt_eq_getElem hk, byteAt_eq_getElem (hk.trans_le hle)]
  exact List.getElem_zipWith

/-- Combining with the same keystream again returns the data. -/
theorem xorBytes_xorBytes {d ks : List Byte} (hle : d.length ≤ ks.length) : xorBytes (xorBytes d ks) ks = d := by
  have hlen := length_xorBytes hle
  apply List.ext_getElem
  · rw [length_xorBytes (hlen.trans_le hle), hlen]
  · intro k _ hk
    simp only [xorBytes, List.getElem_zipWith, BitVec.xor_assoc, BitVec.xor_self, BitVec.xor_zero]

/-- Block q of a run of blocks stands at its bytes 64 q to 64 q + 63. -/
theorem byteAt_blocks (s : State) (t : Word) {n q r : Nat} (hq : q < n) (hr : r < 64) :
    byteAt (s.blocks t n) (64 * q + r) = byteAt (s.block (t + BitVec.ofNat 32 q)) r := by
  obtain ⟨m, rfl⟩ := Nat.exists_eq_add_of_lt hq
  rw [Nat.add_assoc, blocks_add, ← length_blocks s t q, byteAt_append_length_add, blocks_succ,
    byteAt_append_of_lt _ (by rwa [length_block])]

/-! ### The bytes of a TRANSFORM -/

theorem block_congr {s u : State} (hkey : u.key = s.key) (hnonce : u.nonce = s.nonce) (t : Word) :
    u.block t = s.block t := by
  simp only [State.block, State.cipher, hkey, hnonce]

theorem length_le_length_blocks (s : State) (t : Word) (d : List Byte) :
    d.length ≤ (s.blocks t (blocksFor d.length)).length := by
  rw [length_blocks, blocksFor]
  omega

@[simp] theorem length_transformBytes (tier : Tier) (s : State) (d : List Byte) :
    (transformBytes tier s d).length = d.length := by
  rw [transformBytes_eq_xorBytes, length_xorBytes (length_le_length_blocks ..)]

theorem byteAt_transformBytes (tier : Tier) (s : State) {d : List Byte} {k : Nat} (hk : k < d.length) :
    byteAt (transformBytes tier s d) k =
      byteAt d k ^^^ byteAt (s.block (BitVec.ofNat 32 (s.nbi + k / 64))) (k % 64) := by
  have hq : k / 64 < blocksFor d.length := by rw [blocksFor]; omega
  have hbyte := byteAt_blocks s s.ctr hq (Nat.mod_lt k (by decide))
  rw [Nat.div_add_mod] at hbyte
  rw [transformBytes_eq_xorBytes, byteAt_xorBytes hk (length_le_length_blocks ..), hbyte, ofNat_nbi_add]

/-- Two states with the same key, nonce and counter undo each other's TRANSFORM, at any two tiers. -/
theorem transformBytes_transformBytes (t1 t2 : Tier) {s u : State} (hkey : u.key = s.key) (hnonce : u.nonce = s.nonce)
    (hctr : u.ctr = s.ctr) (d : List Byte) : transformBytes t2 u (transformBytes t1 s d) = d := by
  have hblocks (n : Nat) : u.blocks u.ctr n = s.blocks s.ctr n := by
    simp only [State.blocks, block_congr hkey hnonce, hctr]
  rw [transformBytes_eq_xorBytes t2, length_transformBytes, hblocks, transformBytes_eq_xorBytes t1,
    xorBytes_xorBytes (length_le_length_blocks ..)]

/-! ### What TRANSFORM answers -/

theorem decode_of_opcode_transform {cmd : Word} (imm : Word) (hopc : opcField cmd = 0x30#8) :
    decode cmd imm = decodeT cmd imm := by
  simp [decode, hopc]

theorem toNat_field_le (t : Tier) : t.field.toNat ≤ 2 := by cases t <;> decide

theorem isIllegal_of_decodeT {cmd imm : Word} (hformat : decode cmd imm = decodeT cmd imm)
    (h : reservedT cmd ≠ 0#20 ∨ 2 < (tierField cmd).toNat ∨ imm ≠ 0#32) : IsIllegal cmd imm := by
  refine isIllegal_of_forall_ne_ok fun j hj => ?_
  obtain ⟨hres, himm, t, ht, -⟩ := decodeT_eq_ok.1 (hformat.symm.trans hj)
  obtain h | h | h := h
  · exact h hres
  · rw [ht] at h
    exact absurd h (Nat.not_lt.2 (toNat_field_le t))
  · exact h himm

theorem transform_of_not_kv (tier : Tier) {s : State} (hk : s.kv = false) :
    transform tier s = .next (s.answer .notConstructed []) := by
  rw [transform, if_pos hk, raise_eq]

theorem transform_of_nil (tier : Tier) {s : State} (hk : s.kv = true) (hd : s.data = []) :
    transform tier s = .next (s.answer .ok []) := by
  simp [transform, hk, hd, blocksFor, complete_eq]

theorem blocksFor_ne_zero {d : List Byte} (hd : d ≠ []) : blocksFor d.length ≠ 0 :=
  fun h => hd (List.length_eq_zero_iff.1 (blocksFor_eq_zero.1 h))

theorem transform_of_overflow (tier : Tier) {s : State} (hk : s.kv = true) (hd : s.data ≠ [])
    (hover : 2 ^ 32 < s.nbi + blocksFor s.data.length) :
    transform tier s = .next (s.answer .counterOverflow []) := by
  rw [transform, if_neg (by simp [hk]), if_neg (blocksFor_ne_zero hd), if_pos hover, raise_eq]

theorem transform_of_fits (tier : Tier) {s : State} (hk : s.kv = true) (hd : s.data ≠ [])
    (hfits : s.nbi + blocksFor s.data.length ≤ 2 ^ 32) :
    transform tier s = .next (State.answer { s.advance (blocksFor s.data.length) with
      hidden := (transformKeystream tier s s.data).2 } .ok (transformBytes tier s s.data)) := by
  rw [transform, if_neg (by simp [hk]), if_neg (blocksFor_ne_zero hd), if_neg (Nat.not_lt.2 hfits), complete_eq]

/-- Settles O20: the words from the round trip, one lemma per outcome, and the bytes from `byteAt_transformBytes`. -/
theorem transformXorsTheKeystream : Obligations.TransformXorsTheKeystream := by
  unfold Obligations.TransformXorsTheKeystream
  refine ⟨⟨hasOnlyWords_of_encode rfl (Laws.RoundTrip.transformRef rfl),
    hasOnlyWords_of_encode rfl (Laws.RoundTrip.transformRo rfl),
    hasOnlyWords_of_encode rfl (Laws.RoundTrip.transformVec rfl),
    fun _ imm hopc => isIllegal_of_decodeT (decode_of_opcode_transform imm hopc)⟩, ?_⟩
  intro i tier s hi
  rw [exec_of_transformTier hi]
  refine ⟨transform_of_not_kv tier, transform_of_nil tier, transform_of_overflow tier, fun hk hd hfits =>
    ⟨(transformKeystream tier s s.data).2, transformBytes tier s s.data, length_transformBytes tier s s.data,
      fun _ hlt => byteAt_transformBytes tier s hlt, ?_⟩⟩
  rw [transform_of_fits tier hk hd hfits, advance_eq s (n := blocksFor s.data.length) hfits]
  rfl

/-! ### TRANSFORM twice -/

theorem transformBytes_nil (tier : Tier) (s : State) : transformBytes tier s [] = [] := rfl

/-- A TRANSFORM that fits answers its bytes, the empty one among them. -/
theorem transform_answers_bytes (tier : Tier) {s : State} (hk : s.kv = true)
    (hfits : s.nbi + blocksFor s.data.length ≤ 2 ^ 32) :
    ∃ u, transform tier s = .next u ∧ u.rsp = some { status := .ok, rdata := transformBytes tier s s.data } := by
  by_cases hd : s.data = []
  · exact ⟨_, transform_of_nil tier hk hd, by rw [hd, transformBytes_nil, State.answer_rsp]⟩
  · exact ⟨_, transform_of_fits tier hk hd hfits, rfl⟩

/-- What a TRANSFORM that answers OK tells: its bytes, that its blocks fit when counted from CTR, and that there is a key,
which it leaves. (Counted from NBI they need not fit: the empty TRANSFORM of an exhausted engine is OK too.) -/
theorem transform_ok {tier : Tier} {s u : State} {c : List Byte} (h : transform tier s = .next u)
    (hr : u.rsp = some { status := .ok, rdata := c }) :
    c = transformBytes tier s s.data ∧ s.ctr.toNat + blocksFor s.data.length ≤ 2 ^ 32 ∧ u.kv = true ∧ u.key = s.key ∧
      u.nonce = s.nonce := by
  obtain ⟨-, ht⟩ | ⟨hk, hd, ht⟩ | ⟨-, -, -, ht⟩ | ⟨hk, -, hfits, ht⟩ := transform_cases tier s <;>
    cases h.symm.trans ht <;> cases hr
  · exact ⟨by rw [hd, transformBytes_nil], by rw [hd]; exact s.ctr.isLt.le, hk, rfl, rfl⟩
  · rw [State.nbi] at hfits
    exact ⟨rfl, by omega, hk, rfl, rfl⟩

theorem exec_setctr_of_kv (v : Word) {s : State} (hd : s.data = []) (hk : s.kv = true) :
    exec (.setctr v) s = .next (State.answer { s with ctr := v, exh := false } .ok []) := by
  simp [exec, execSetctr, setCounter, hd, hk, complete_eq]

/-- SETCTR of a constructed engine, by what later commands read: the key and the nonce are kept, and NBI is the value. -/
theorem exists_exec_setctr (v : Word) {s : State} (hd : s.data = []) (hk : s.kv = true) :
    ∃ u : State, exec (.setctr v) s = .next u ∧ u.rsp = some { status := .ok, rdata := [] } ∧ u.kv = true ∧
      u.key = s.key ∧ u.nonce = s.nonce ∧ u.ctr = v ∧ u.exh = false :=
  ⟨_, exec_setctr_of_kv v hd hk, rfl, hk, rfl, rfl, rfl, rfl⟩

/-- Settles O48: after the SETCTR the second TRANSFORM starts from the counter of the first, so it fits as well and its
bytes are the data (`transformBytes_transformBytes`). -/
theorem transformIsAnInvolution : Obligations.TransformIsAnInvolution := by
  unfold Obligations.TransformIsAnInvolution
  intro t1 t2 s u c hu hr
  rw [exec_transform] at hu
  obtain ⟨rfl, hfits, hk, hkey, hnonce⟩ := transform_ok hu hr
  obtain ⟨v, hv, hvr, hvk, hvkey, hvnonce, hvctr, hvexh⟩ := exists_exec_setctr s.ctr (s := u.load []) rfl hk
  have hvfits : (v.load (transformBytes t1 s s.data)).nbi + blocksFor (transformBytes t1 s s.data).length ≤ 2 ^ 32 := by
    rwa [State.load_nbi, nbi_of_not_exh hvexh, hvctr, length_transformBytes]
  obtain ⟨w, hw, hwr⟩ := transform_answers_bytes t2 (s := v.load (transformBytes t1 s s.data)) hvk hvfits
  refine ⟨v, w, hv, hvr, by rw [exec_transform, hw], ?_⟩
  rw [hwr, State.load_data,
    transformBytes_transformBytes t1 t2 (u := v.load _) (hvkey.trans hkey) (hvnonce.trans hnonce) hvctr]

/-! ### What each keystream command can do, by the blocks it needs -/

theorem eq_of_isKeystream {i : Instr} (hi : isKeystream i = true) :
    i = .ksblock ∨ i = .ksbatch ∨ ∃ tier, transformTier i = some tier := by
  cases i <;> simp_all [isKeystream, transformTier]

theorem blocksNeeded_of_transformTier {i : Instr} {tier : Tier} (hi : transformTier i = some tier) (len : Nat) :
    blocksNeeded i len = blocksFor len := by
  cases i <;> simp_all [blocksNeeded, transformTier]

theorem nbi_add_eight_le_iff (s : State) : s.nbi + 8 ≤ 2 ^ 32 ↔ s.exh = false ∧ s.ctr.toNat ≤ 0xFFFFFFF8 := by
  have hlt := s.ctr.isLt
  rw [State.nbi]
  cases s.exh with
  | false => simp [flagNat]
  | true => simp [flagNat]; omega

/-- Every outcome of a keystream command that needs `n` blocks. -/
inductive StreamsBlocks (i : Instr) (n : Nat) (s : State) : Prop where
  /-- A check before the counter's fails. -/
  | otherCheck (st : Status) (hcheck : s.kv = false ∨ lengthWrong i s.data.length = true) (hok : st ≠ .ok)
      (hover : st ≠ .counterOverflow) (ht : exec i s = .next (s.answer st []))
  /-- A block's counter would exceed 0xFFFFFFFF (R183). -/
  | overflow (hk : s.kv = true) (hneed : 1 ≤ n) (hover : 2 ^ 32 < s.nbi + n)
      (ht : exec i s = .next (s.answer .counterOverflow []))
  /-- The empty TRANSFORM. -/
  | noBlock (hk : s.kv = true) (hzero : n = 0) (ht : exec i s = .next (s.answer .ok []))
  /-- The blocks are consumed (R184). -/
  | consumed (hk : s.kv = true) (hfits : s.nbi + n ≤ 2 ^ 32) (h : Hidden) (b : List Byte)
      (ht : exec i s = .next (State.answer { s.advance n with hidden := h } .ok b))

theorem ksblock_streamsBlocks (s : State) : StreamsBlocks .ksblock 1 s := by
  rcases ne_or_eq s.data [] with hd | hd
  · have hlen : lengthWrong .ksblock s.data.length = true := by simpa [lengthWrong, requiredLen] using hd
    exact .otherCheck _ (.inr hlen) (by decide) (by decide) (exec_ksblock_of_ne_nil hd)
  cases hk : s.kv with
  | false => exact .otherCheck _ (.inl hk) (by decide) (by decide) (exec_ksblock_of_not_kv hd hk)
  | true =>
    have hfits := nbi_add_one_le_iff s
    cases he : s.exh with
    | true =>
      rw [he, iff_false_right (by decide), not_le] at hfits
      exact .overflow hk le_rfl hfits (exec_ksblock_of_exh hd hk he)
    | false => exact .consumed hk (hfits.2 he) _ _ (exec_ksblock_of_ready hd hk he)

theorem ksbatch_streamsBlocks (s : State) : StreamsBlocks .ksbatch 8 s := by
  rcases ne_or_eq s.data [] with hd | hd
  · have hlen : lengthWrong .ksbatch s.data.length = true := by simpa [lengthWrong, requiredLen] using hd
    exact .otherCheck _ (.inr hlen) (by decide) (by decide) (exec_ksbatch_of_ne_nil hd)
  cases hk : s.kv with
  | false => exact .otherCheck _ (.inl hk) (by decide) (by decide) (exec_ksbatch_of_not_kv hd hk)
  | true =>
    by_cases hfits : s.nbi + 8 ≤ 2 ^ 32
    · obtain ⟨he, hctr⟩ := (nbi_add_eight_le_iff s).1 hfits
      exact .consumed hk hfits _ _ (exec_ksbatch_of_fits hd hk he hctr)
    · have hover : s.exh = true ∨ 0xFFFFFFF8 < s.ctr.toNat := by
        rwa [nbi_add_eight_le_iff, not_and_or, Bool.not_eq_false, not_le] at hfits
      exact .overflow hk (by decide) (Nat.not_le.1 hfits) (exec_ksbatch_of_overflow hd hk hover)

theorem transform_streamsBlocks {i : Instr} {tier : Tier} (hi : transformTier i = some tier) (s : State) :
    StreamsBlocks i (blocksFor s.data.length) s := by
  have hexec := exec_of_transformTier hi s
  obtain ⟨hk, ht⟩ | ⟨hk, hd, ht⟩ | ⟨hk, hd, hover, ht⟩ | ⟨hk, -, hfits, ht⟩ := transform_cases tier s
  · exact .otherCheck _ (.inl hk) (by decide) (by decide) (hexec.trans ht)
  · exact .noBlock hk (by rw [hd]; rfl) (hexec.trans ht)
  · exact .overflow hk (Nat.one_le_iff_ne_zero.2 (blocksFor_ne_zero hd)) hover (hexec.trans ht)
  · exact .consumed hk hfits _ _ (hexec.trans ht)

theorem exec_streamsBlocks {i : Instr} (hi : isKeystream i = true) (s : State) :
    StreamsBlocks i (blocksNeeded i s.data.length) s := by
  obtain rfl | rfl | ⟨tier, htier⟩ := eq_of_isKeystream hi
  · exact ksblock_streamsBlocks s
  · exact ksbatch_streamsBlocks s
  · rw [blocksNeeded_of_transformTier htier]
    exact transform_streamsBlocks htier s

theorem lengthWrong_of_requiredLen {i : Instr} {len : Nat} (h : requiredLen i = none ∨ requiredLen i = some len) :
    lengthWrong i len = false := by
  obtain h | h := h <;> simp [lengthWrong, h]

/-- Settles O35: the outcomes of `exec_streamsBlocks`; the premises leave those where blocks are needed and no other check
fails. -/
theorem overflowExactlyWhenACounterWouldExceed : Obligations.OverflowExactlyWhenACounterWouldExceed := by
  unfold Obligations.OverflowExactlyWhenACounterWouldExceed
  intro i s hi hk hlen hneed
  cases exec_streamsBlocks hi s with
  | otherCheck st hcheck => simp [hk, lengthWrong_of_requiredLen hlen] at hcheck
  | overflow _ _ hover ht =>
    exact ⟨_, _, ht, rfl, iff_of_true rfl hover, fun _ => ⟨rfl, rfl, rfl⟩, fun hne => absurd rfl hne⟩
  | noBlock _ hzero => omega
  | consumed _ hfits h b ht =>
    exact ⟨_, _, ht, rfl, iff_of_false nofun (Nat.not_lt.2 hfits), nofun, fun _ => rfl⟩

/-! ### What the other commands can do to the counter -/

/-- A command that answers in place: it writes no register of R38, and CounterOverflow is not its answer. -/
def AnswersInPlace (s : State) (o : Host.Outcome State Fault Refusal) : Prop :=
  ∃ (h : Hidden) (st : Status) (b : List Byte), o = .next (State.answer { s with hidden := h } st b) ∧
    st ≠ .counterOverflow

theorem answersInPlace_raise {st : Status} (hst : st ≠ .counterOverflow) (s : State) : AnswersInPlace s (raise st s) :=
  ⟨s.hidden, st, [], rfl, hst⟩

theorem answersInPlace_complete (b : List Byte) (s : State) (h : Hidden) :
    AnswersInPlace s (complete b { s with hidden := h }) :=
  ⟨h, .ok, b, rfl, by decide⟩

theorem AnswersInPlace.ite {s : State} {p : Prop} [Decidable p] {o o' : Host.Outcome State Fault Refusal}
    (h : AnswersInPlace s o) (h' : AnswersInPlace s o') : AnswersInPlace s (if p then o else o') := by
  split
  · exact h
  · exact h'

/-- GETCTR and the diagnostic commands, which are left when the others are taken away. -/
theorem exec_answersInPlace {i : Instr} (hks : isKeystream i = false) (hcon : ∀ k n, i ≠ .construct k n)
    (hset : ∀ v, i ≠ .setctr v ∧ i ≠ .seek v) (s : State) : AnswersInPlace s (exec i s) := by
  cases i with
  | getctr =>
    exact .ite (answersInPlace_raise (by decide) s) (.ite (answersInPlace_raise (by decide) s)
      (answersInPlace_complete _ s s.hidden))
  | rotl x n =>
    exact .ite (answersInPlace_raise (by decide) s) (.ite (answersInPlace_raise (by decide) s)
      (answersInPlace_complete _ s s.hidden))
  | qround => exact .ite (answersInPlace_raise (by decide) s) (answersInPlace_complete _ s s.hidden)
  | blockfn raw => exact .ite (answersInPlace_raise (by decide) s) (answersInPlace_complete _ s _)
  | construct k n => exact absurd rfl (hcon k n)
  | setctr v => exact absurd rfl (hset v).1
  | seek v => exact absurd rfl (hset v).2
  | ksblock | ksbatch | transformRef | transformRo | transformVec | encrypt _ | decrypt _ => cases hks

theorem blocksNeeded_of_not_isKeystream {i : Instr} (hi : isKeystream i = false) (len : Nat) :
    blocksNeeded i len = 0 := by
  cases i <;> simp_all [blocksNeeded, isKeystream]

/-- Settles O34: a keystream command by `exec_streamsBlocks`, any other by `exec_answersInPlace`. -/
theorem counterAdvancesByTheBlocksConsumed : Obligations.CounterAdvancesByTheBlocksConsumed := by
  unfold Obligations.CounterAdvancesByTheBlocksConsumed
  intro i s hnbi hcon hset
  cases hi : isKeystream i with
  | false =>
    obtain ⟨h, st, b, ht, -⟩ := exec_answersInPlace hi hcon hset s
    refine ⟨_, _, ht, rfl, ?_, hnbi⟩
    rw [blocksNeeded_of_not_isKeystream hi, ite_self]
    rfl
  | true =>
    cases exec_streamsBlocks hi s with
    | otherCheck st _ hok _ ht => exact ⟨_, _, ht, rfl, by rw [if_neg hok]; rfl, hnbi⟩
    | overflow _ _ _ ht => exact ⟨_, _, ht, rfl, rfl, hnbi⟩
    | noBlock _ hzero ht => exact ⟨_, _, ht, rfl, by rw [if_pos rfl, hzero]; rfl, hnbi⟩
    | consumed _ hfits h b ht =>
      have hadv := nbi_advance hfits
      exact ⟨_, _, ht, rfl, hadv, hadv.trans_le hfits⟩

/-! ### After CounterOverflow -/

/-- A command answers, with a status other than CounterOverflow. -/
def AnswersWithoutOverflow (o : Host.Outcome State Fault Refusal) : Prop :=
  ∃ (u : State) (st : Status) (b : List Byte), o = .next (u.answer st b) ∧ st ≠ .counterOverflow

theorem construct_withoutOverflow (k n : BitVec 8) (s : State) : AnswersWithoutOverflow (execConstruct k n s) := by
  unfold execConstruct
  split_ifs <;> exact ⟨_, _, _, rfl, by decide⟩

theorem setCounter_withoutOverflow (v : Word) (s : State) : AnswersWithoutOverflow (setCounter v s) := by
  obtain ⟨-, h⟩ | ⟨-, -, h⟩ | ⟨-, -, h⟩ := setCounter_cases v s <;> exact ⟨_, _, _, h, by decide⟩

theorem exec_withoutOverflow {i : Instr} (hi : isKeystream i = false) (s : State) :
    AnswersWithoutOverflow (exec i s) := by
  cases i with
  | construct k n => exact construct_withoutOverflow k n s
  | setctr v => exact setCounter_withoutOverflow v s
  | seek v => exact setCounter_withoutOverflow v s
  | _ =>
    obtain ⟨h, st, b, ht, hst⟩ := exec_answersInPlace hi nofun (fun _ => ⟨nofun, nofun⟩) s
    exact ⟨_, st, b, ht, hst⟩

/-- CounterOverflow is found by a constructed engine only, and changes nothing. -/
theorem eq_of_exec_counterOverflow {i : Instr} {s t : State} {b : List Byte} (ht : exec i s = .next t)
    (hr : t.rsp = some { status := .counterOverflow, rdata := b }) :
    s.kv = true ∧ t = s.answer .counterOverflow [] := by
  cases hi : isKeystream i with
  | false =>
    obtain ⟨u, st, c, hu, hst⟩ := exec_withoutOverflow hi s
    cases ht.symm.trans hu
    cases hr
    exact absurd rfl hst
  | true =>
    cases exec_streamsBlocks hi s with
    | otherCheck st _ _ hover hu => cases ht.symm.trans hu; cases hr; exact absurd rfl hover
    | overflow hk _ _ hu => cases ht.symm.trans hu; exact ⟨hk, rfl⟩
    | noBlock _ _ hu => cases ht.symm.trans hu; cases hr
    | consumed _ _ h c hu => cases ht.symm.trans hu; cases hr

theorem exists_exec_construct {s : State} (hd : s.data.length = 44) :
    ∃ u : State, exec (.construct 32#8 12#8) s = .next u ∧ u.rsp = some { status := .ok, rdata := [] } := by
  simp [exec, execConstruct, hd, Config.keyBytes, Config.nonceBytes, complete_eq]

/-- Settles O27: the state after CounterOverflow is the constructed one before it (`eq_of_exec_counterOverflow`), where each
of the commands answers OK. -/
theorem overflowDoesNotLockTheEngine : Obligations.OverflowDoesNotLockTheEngine := by
  unfold Obligations.OverflowDoesNotLockTheEngine
  intro i s t ht hr
  obtain ⟨hk, rfl⟩ := eq_of_exec_counterOverflow ht hr
  simp only [State.load_answer]
  refine ⟨rfl, fun v => ?_, fun data hlen => exists_exec_construct hlen, fun tier data hfits => ?_⟩
  · obtain ⟨u, hu, hur, huk, hkey, hnonce, hctr, hexh⟩ := exists_exec_setctr v (s := s.load []) rfl hk
    refine ⟨u, _, hu, hur, exec_ksblock_of_ready (s := u.load []) rfl huk hexh, ?_⟩
    rw [State.answer_rsp, State.load_block, State.load_ctr, hctr, block_congr hkey hnonce, State.load_block]
  · obtain ⟨u, hu, hur⟩ := transform_answers_bytes tier (s := s.load data) hk hfits
    exact ⟨u, _, by rw [exec_transform, hu], hur, length_transformBytes ..⟩

end Sys2Proof.Machine
end

section
/-! PROOFS. The control commands CONSTRUCT, SETCTR with its second name SEEK, and GETCTR (44_control.md R200 to R205). A word
read from the payload serializes to the four bytes it was read from, so KEY and NONCE hold the payload's bytes in order. -/

namespace Sys2Proof.Machine

/-! ### CONSTRUCT -/

theorem decode_of_opcode_construct {cmd : Word} (imm : Word) (hopc : opcField cmd = 0x01#8) :
    decode cmd imm = decodeC cmd imm := by
  simp [decode, hopc]

theorem isIllegal_of_decodeC {cmd imm : Word} (hformat : decode cmd imm = decodeC cmd imm)
    (h : reservedC cmd ≠ 0#8 ∨ imm ≠ 0#32) : IsIllegal cmd imm := by
  refine isIllegal_of_forall_ne_ok fun j hj => ?_
  obtain ⟨hres, himm, -⟩ := decodeC_eq_ok.1 (hformat.symm.trans hj)
  exact h.elim (· hres) (· himm)

/-- Each word of a payload serializes to the four bytes it was read from. -/
theorem ser32_getElem_payloadWords {n : Nat} (start : Nat) (d : List Byte) (j : Fin n) :
    ser32 (payloadWords n start d)[j] =
      [byteAt d (start + 4 * j), byteAt d (start + 4 * j + 1), byteAt d (start + 4 * j + 2),
        byteAt d (start + 4 * j + 3)] := by
  rw [payloadWords, Fin.getElem_fin, Vector.getElem_ofFn, ser32_le32]

section
variable {k n : BitVec 8} {s : State}

theorem exec_construct_of_length_ne (hlen : s.data.length ≠ k.toNat + n.toNat) :
    exec (.construct k n) s = .next (s.answer .malformedPayload []) := by
  simp [exec, execConstruct, hlen, raise_eq]

theorem exec_construct_of_key_ne (hlen : s.data.length = k.toNat + n.toNat) (hk : k.toNat ≠ 32) :
    exec (.construct k n) s = .next (s.answer .invalidKeySize []) := by
  simp [exec, execConstruct, Config.keyBytes, hlen, hk, raise_eq]

theorem exec_construct_of_nonce_ne (hlen : s.data.length = k.toNat + n.toNat) (hk : k.toNat = 32)
    (hn : n.toNat ≠ 12) : exec (.construct k n) s = .next (s.answer .invalidNonceSize []) := by
  simp [exec, execConstruct, Config.keyBytes, Config.nonceBytes, hlen, hk, hn, raise_eq]

theorem exec_construct_of_sizes (hlen : s.data.length = k.toNat + n.toNat) (hk : k.toNat = 32) (hn : n.toNat = 12) :
    exec (.construct k n) s =
      .next (State.answer
        { s with
          key := payloadWords 8 0 s.data, nonce := payloadWords 3 32 s.data
          ctr := s.params.initCtr, exh := false, kv := true } .ok []) := by
  simp [exec, execConstruct, Config.keyBytes, Config.nonceBytes, hlen, hk, hn, complete_eq]

end

/-- Settles O12: the words from the round trip, one lemma per check, and the bytes of KEY and NONCE from
`ser32_getElem_payloadWords`. -/
theorem constructLoadsKeyNonceAndCounter : Obligations.ConstructLoadsKeyNonceAndCounter := by
  unfold Obligations.ConstructLoadsKeyNonceAndCounter
  intro k n s
  refine ⟨hasOnlyWords_of_encode rfl (Laws.RoundTrip.construct k n rfl),
    fun _ imm hopc => isIllegal_of_decodeC (decode_of_opcode_construct imm hopc),
    exec_construct_of_length_ne, exec_construct_of_key_ne, exec_construct_of_nonce_ne,
    fun hlen hk hn => ⟨payloadWords 8 0 s.data, payloadWords 3 32 s.data, fun j => ?_,
      ser32_getElem_payloadWords 32 s.data, exec_construct_of_sizes hlen hk hn⟩⟩
  rw [ser32_getElem_payloadWords, Nat.zero_add]

/-! ### SETCTR and SEEK -/

theorem decode_of_opcode_setctr {cmd : Word} (imm : Word) (hopc : opcField cmd = 0x02#8) :
    decode cmd imm = decodeSetctr cmd imm := by
  simp [decode, hopc]

theorem isIllegal_of_decodeSetctr {cmd imm : Word} (hformat : decode cmd imm = decodeSetctr cmd imm)
    (h : reservedZ cmd ≠ 0#24) : IsIllegal cmd imm := by
  refine isIllegal_of_forall_ne_ok fun j hj => ?_
  obtain ⟨hres, -⟩ := decodeSetctr_eq_ok.1 (hformat.symm.trans hj)
  exact h hres

theorem exec_setctr_of_ne_nil (v : Word) {s : State} (hd : s.data ≠ []) :
    exec (.setctr v) s = .next (s.answer .malformedPayload []) := by
  simp [exec, execSetctr, setCounter, hd, raise_eq]

theorem exec_setctr_of_not_kv (v : Word) {s : State} (hd : s.data = []) (hk : s.kv = false) :
    exec (.setctr v) s = .next (s.answer .notConstructed []) := by
  simp [exec, execSetctr, setCounter, hd, hk, raise_eq]

/-- Settles O13: SEEK does what its core command SETCTR does (`exec_canonical`), which has one lemma per check. -/
theorem setctrOverwritesTheCounter : Obligations.SetctrOverwritesTheCounter := by
  unfold Obligations.SetctrOverwritesTheCounter
  intro v i s hi
  have hcore : exec i s = exec (.setctr v) s := by
    obtain rfl | rfl := hi
    · rfl
    · exact (exec_canonical (.seek v) s).symm
  rw [hcore]
  exact ⟨hasOnlyWords_of_encode rfl (Laws.RoundTrip.setctr v rfl),
    fun _ imm hopc => isIllegal_of_decodeSetctr (decode_of_opcode_setctr imm hopc),
    exec_setctr_of_ne_nil v, exec_setctr_of_not_kv v, exec_setctr_of_kv v⟩

/-! ### GETCTR -/

theorem decode_of_opcode_getctr {cmd : Word} (imm : Word) (hopc : opcField cmd = 0x03#8) :
    decode cmd imm = decodeZ cmd imm .getctr := by
  simp [decode, hopc]

theorem ser32_flagWord (b : Bool) : ser32 (flagWord b) = [if b then 1#8 else 0#8, 0#8, 0#8, 0#8] := by
  cases b <;> rfl

theorem exec_getctr_of_ne_nil {s : State} (hd : s.data ≠ []) :
    exec .getctr s = .next (s.answer .malformedPayload []) := by
  simp [exec, execGetctr, hd, raise_eq]

theorem exec_getctr_of_not_kv {s : State} (hd : s.data = []) (hk : s.kv = false) :
    exec .getctr s = .next (s.answer .notConstructed []) := by
  simp [exec, execGetctr, hd, hk, raise_eq]

theorem exec_getctr_of_kv {s : State} (hd : s.data = []) (hk : s.kv = true) :
    exec .getctr s = .next (s.answer .ok (ser32 s.ctr ++ ser32 (flagWord s.exh))) := by
  simp [exec, execGetctr, hd, hk, complete_eq]

/-- Settles O14: the words from the round trip, one lemma per check, and the bytes of EXH from `ser32_flagWord`. -/
theorem getctrReadsCounterAndFlag : Obligations.GetctrReadsCounterAndFlag := by
  unfold Obligations.GetctrReadsCounterAndFlag
  intro s
  refine ⟨hasOnlyWords_of_encode rfl (Laws.RoundTrip.getctr rfl),
    fun _ imm hopc => isIllegal_of_decodeZ (decode_of_opcode_getctr imm hopc),
    exec_getctr_of_ne_nil, exec_getctr_of_not_kv, fun hd hk => ?_⟩
  rw [exec_getctr_of_kv hd hk, ser32_flagWord]
  rfl

end Sys2Proof.Machine
end

section
/-! PROOFS. Errors (60_exceptions.md R222 to R224) and the second requester (R238). Every command makes its checks in the
order of R223's tables, so its status is that of the first check that fails; a status other than OK is all that an error
leaves behind. What R222 says of NotConstructed follows from these two and the tables. -/

namespace Sys2Proof.Machine

/-! ### The status of a command -/

/-- A command answers, with status `st`. -/
def AnswersWith (st : Status) (o : Host.Outcome State Fault Refusal) : Prop :=
  ∃ (t : State) (r : Response), o = .next t ∧ t.rsp = some r ∧ r.status = st

theorem answersWith_answer (s : State) (st : Status) (b : List Byte) : AnswersWith st (.next (s.answer st b)) :=
  ⟨_, _, rfl, rfl, rfl⟩

theorem answersWith_raise (st : Status) (s : State) : AnswersWith st (raise st s) := answersWith_answer s st []

theorem answersWith_complete (b : List Byte) (s : State) : AnswersWith .ok (complete b s) := answersWith_answer s .ok b

/-- A check made by the command is the same check in the status. -/
theorem AnswersWith.ite {p : Prop} [Decidable p] {st st' : Status} {o o' : Host.Outcome State Fault Refusal}
    (h : AnswersWith st o) (h' : AnswersWith st' o') : AnswersWith (if p then st else st') (if p then o else o') := by
  split
  · exact h
  · exact h'

theorem AnswersWith.status_eq {st : Status} {o : Host.Outcome State Fault Refusal} {t : State} {r : Response}
    (h : AnswersWith st o) (ht : o = .next t) (hr : t.rsp = some r) : r.status = st := by
  obtain ⟨u, q, hu, hq, hst⟩ := h
  cases ht.symm.trans hu
  cases hr.symm.trans hq
  exact hst

theorem setCounter_answersWith (v : Word) (s : State) :
    AnswersWith (if s.data.length ≠ 0 then .malformedPayload else if s.kv = false then .notConstructed else .ok)
      (setCounter v s) :=
  .ite (answersWith_raise _ s) (.ite (answersWith_raise _ s) (answersWith_complete _ _))

/-- TRANSFORM answers the empty payload without a look at the counter, where the check of R183 passes. -/
theorem transform_answersWith (tier : Tier) (s : State) :
    AnswersWith (if s.kv = false then .notConstructed
      else if 1 ≤ blocksFor s.data.length ∧ s.nbi + blocksFor s.data.length > 2 ^ 32 then .counterOverflow else .ok)
      (transform tier s) := by
  obtain ⟨hk, ht⟩ | ⟨hk, hd, ht⟩ | ⟨hk, hd, hover, ht⟩ | ⟨hk, -, hfits, ht⟩ := transform_cases tier s
  · rw [ht, if_pos hk]
    exact answersWith_answer ..
  · have hzero : blocksFor s.data.length = 0 := by rw [hd]; rfl
    rw [ht, if_neg (by simp [hk]), if_neg (by simp [hzero])]
    exact answersWith_answer ..
  · have hneed := Nat.one_le_iff_ne_zero.2 (blocksFor_ne_zero hd)
    rw [ht, if_neg (by simp [hk]), if_pos ⟨hneed, hover⟩]
    exact answersWith_answer ..
  · rw [ht, if_neg (by simp [hk]), if_neg fun h => Nat.not_lt.2 hfits h.2]
    exact answersWith_answer ..

/-- A command's own checks are those of its table, in the same order. -/
theorem exec_answersWith_firstFailing (i : Instr) (s : State) :
    AnswersWith (firstFailing i s.data.length s) (exec i s) := by
  cases i with
  | construct k n =>
    rw [firstFailing_construct]
    exact .ite (answersWith_raise _ s) (.ite (answersWith_raise _ s) (.ite (answersWith_raise _ s)
      (answersWith_complete _ _)))
  | setctr v =>
    rw [firstFailing_counter (.inr ⟨v, .inl rfl⟩)]
    exact setCounter_answersWith v s
  | seek v =>
    rw [firstFailing_counter (.inr ⟨v, .inr rfl⟩)]
    exact setCounter_answersWith v s
  | getctr =>
    rw [firstFailing_counter (.inl rfl)]
    exact .ite (answersWith_raise _ s) (.ite (answersWith_raise _ s) (answersWith_complete _ s))
  | rotl x n =>
    rw [firstFailing_rotl]
    exact .ite (answersWith_raise _ s) (.ite (answersWith_raise _ s) (answersWith_complete _ s))
  | qround =>
    rw [firstFailing_qround]
    exact .ite (answersWith_raise _ s) (answersWith_complete _ s)
  | blockfn raw =>
    rw [firstFailing_blockfn]
    exact .ite (answersWith_raise _ s) (answersWith_complete _ _)
  | ksblock =>
    rw [firstFailing_ksblock]
    exact .ite (answersWith_raise _ s) (.ite (answersWith_raise _ s) (.ite (answersWith_raise _ s)
      (answersWith_complete _ _)))
  | ksbatch =>
    rw [firstFailing_ksbatch]
    exact .ite (answersWith_raise _ s) (.ite (answersWith_raise _ s) (.ite (answersWith_raise _ s)
      (answersWith_complete _ _)))
  | transformRef | transformRo | transformVec | encrypt tier | decrypt tier =>
    rw [firstFailing_transform rfl]
    exact transform_answersWith _ s

/-- Settles O22: command by command in `exec_answersWith_firstFailing`; undecodable words by `isIllegal_of_decode_error`. -/
theorem firstFailingCheckIsReported : Obligations.FirstFailingCheckIsReported :=
  ⟨exec_answersWith_firstFailing, fun _ _ _ => isIllegal_of_decode_error⟩

/-! ### What an error leaves behind -/

/-- A status other than OK is the whole effect of what answers with it. -/
theorem Answers.eq_of_status_ne_ok {s t : State} {o : Host.Outcome State Fault Refusal} {r : Response}
    (h : Answers s o) (ht : o = .next t) (hr : t.rsp = some r) (hne : r.status ≠ .ok) :
    r.rdata = [] ∧ t = s.answer r.status [] := by
  obtain ⟨u, st, b, hu, herr, -⟩ := h
  cases ht.symm.trans hu
  cases hr
  obtain ⟨rfl, rfl⟩ := herr hne
  exact ⟨rfl, rfl⟩

/-- Settles O23: the state after the error is the one before it but for the response. -/
theorem errorHasNoEffect : Obligations.ErrorHasNoEffect := by
  unfold Obligations.ErrorHasNoEffect
  intro s t r hexec hr hne
  have heffect : r.rdata = [] ∧ t = s.answer r.status [] := by
    obtain ⟨i, ht⟩ | ⟨cmd, imm, ht⟩ := hexec
    · exact (exec_answers i s).eq_of_status_ne_ok ht hr hne
    · exact (execute_answers cmd imm s).eq_of_status_ne_ok ht hr hne
  obtain ⟨hbytes, ht⟩ := heffect
  rw [ht]
  exact ⟨hbytes, rfl, rfl, rfl, rfl, rfl, rfl⟩

/-- A command whose table finds an error raises that error. -/
theorem exec_of_firstFailing {i : Instr} {s : State} {st : Status} (hst : firstFailing i s.data.length s = st)
    (hne : st ≠ .ok) : exec i s = .next (s.answer st []) := by
  obtain ⟨t, r, ht, hr, hfirst⟩ := exec_answersWith_firstFailing i s
  obtain rfl := hfirst.trans hst
  obtain ⟨-, heq⟩ := (exec_answers i s).eq_of_status_ne_ok ht hr hne
  rw [ht, heq]

/-! ### NotConstructed -/

/-- The commands of R222 make the KV check of their table after no other than that of the words and that of the length. -/
theorem checksOf_of_reads_state {i : Instr}
    (hi : (∃ v, i = .setctr v ∨ i = .seek v) ∨ i = .getctr ∨ isKeystream i = true) :
    ∃ pre post, checksOf i = pre ++ .notConstructed :: post ∧ pre ⊆ [.illegalCommand, .malformedPayload] ∧
      i.wellFormed = true := by
  cases i with
  | setctr _ | seek _ | getctr | ksblock | ksbatch =>
    exact ⟨[.illegalCommand, .malformedPayload], _, rfl, List.Subset.refl _, rfl⟩
  | transformRef | transformRo | transformVec | encrypt _ | decrypt _ =>
    exact ⟨[.illegalCommand], _, rfl, by simp, rfl⟩
  | construct _ _ | rotl _ _ | qround | blockfn _ => simp [isKeystream] at hi

theorem firstOf_append_of_pass {i : Instr} {len : Nat} {s : State} {pre : List Check}
    (hpre : ∀ c ∈ pre, c.fails i len s = false) (l : List Check) : firstOf i len s (pre ++ l) = firstOf i len s l := by
  induction pre with
  | nil => rfl
  | cons c pre ih =>
    obtain ⟨hc, hrest⟩ := List.forall_mem_cons.1 hpre
    rw [List.cons_append, firstOf, hc, if_neg Bool.false_ne_true, ih hrest]

theorem firstFailing_of_not_kv {i : Instr} {len : Nat} {s : State}
    (hi : (∃ v, i = .setctr v ∨ i = .seek v) ∨ i = .getctr ∨ isKeystream i = true) (hk : s.kv = false)
    (hlen : requiredLen i = none ∨ requiredLen i = some len) : firstFailing i len s = .notConstructed := by
  obtain ⟨pre, post, htable, hpre, hwf⟩ := checksOf_of_reads_state hi
  have hpass : ∀ c ∈ pre, c.fails i len s = false := by
    intro c hc
    obtain rfl | rfl := List.mem_pair.1 (hpre hc)
    · simp [Check.fails, hwf]
    · exact lengthWrong_of_requiredLen hlen
  rw [firstFailing, htable, firstOf_append_of_pass hpass, firstOf, if_pos (by simp [Check.fails, hk])]
  rfl

/-- An error a command's table finds is that of a check in the table. -/
theorem exists_mem_checksOf {i : Instr} {len : Nat} {s : State} {st : Status} (hst : firstFailing i len s = st)
    (hne : st ≠ .ok) : ∃ c ∈ checksOf i, c.status = st := by
  obtain ⟨pre, c, post, hl, -, -, hc⟩ := firstOf_split hne hst
  exact ⟨c, by simp [hl], hc⟩

/-- Settles O26: with KV = 0 the KV check is the first of these commands' tables that fails (`firstFailing_of_not_kv`), and
the other four commands' tables have no KV check. -/
theorem notConstructedIsForStateReaders : Obligations.NotConstructedIsForStateReaders := by
  unfold Obligations.NotConstructedIsForStateReaders
  refine ⟨fun i s hi hk hlen => exec_of_firstFailing (firstFailing_of_not_kv hi hk hlen) (by decide), ?_⟩
  intro i s t r hi ht hr hst
  have hfirst := (exec_answersWith_firstFailing i s).status_eq ht hr
  obtain ⟨c, hc, hcst⟩ := exists_mem_checksOf (hfirst.symm.trans hst) (by decide)
  have hnotMem : .notConstructed ∉ checksOf i := by
    obtain ⟨k, n, rfl⟩ | ⟨x, n, rfl⟩ | rfl | ⟨b, rfl⟩ := hi <;> simp [checksOf]
  cases c with
  | notConstructed => exact hnotMem hc
  | illegalCommand | malformedPayload | keySize | nonceSize | counterOverflow => cases hcst

/-! ### The second requester -/

/-- Settles O7: the step is the event's, and this one has no move. -/
theorem secondRequesterHasNoMove : Obligations.SecondRequesterHasNoMove := by
  unfold Obligations.SecondRequesterHasNoMove
  intro s r rest hin
  rw [step_cons hin]
  rfl

end Sys2Proof.Machine
end

section
/-! PROOFS. Decoder and encoder as inverses (30_encoding.md R84, R91, R94). One direction is the model's round trip of each
command; the other, `encode_of_decode`, then also says that a decoded command is a core command, and what is left is the one
operand constraint, that ROTL is never decoded with N = 0. -/

namespace Sys2Proof.Machine

/-- Settles O54: the model's round trip, command by command. -/
theorem decodeOfEncodeIsTheCommand : Obligations.DecodeOfEncodeIsTheCommand := by
  unfold Obligations.DecodeOfEncodeIsTheCommand
  intro i
  cases i with
  | construct k n => exact Laws.RoundTrip.construct k n
  | setctr v => exact Laws.RoundTrip.setctr v
  | getctr => exact Laws.RoundTrip.getctr
  | rotl x n => exact Laws.RoundTrip.rotl x n
  | qround => exact Laws.RoundTrip.qround
  | blockfn raw => exact Laws.RoundTrip.blockfn raw
  | ksblock => exact Laws.RoundTrip.ksblock
  | ksbatch => exact Laws.RoundTrip.ksbatch
  | transformRef => exact Laws.RoundTrip.transformRef
  | transformRo => exact Laws.RoundTrip.transformRo
  | transformVec => exact Laws.RoundTrip.transformVec
  | encrypt t => exact Laws.RoundTrip.encrypt t
  | decrypt t => exact Laws.RoundTrip.decrypt t
  | seek v => exact Laws.RoundTrip.seek v

theorem amount_ne_zero_of_decode {cmd imm x : Word} {n : BitVec 5} (h : decode cmd imm = .ok (.rotl x n)) :
    n ≠ 0#5 := by
  have hcmd : cmd = formatR 0x10#8 n := congrArg Prod.fst (encode_of_decode h).symm
  obtain ⟨hopc, -⟩ := (formatR_iff cmd _ n).2 hcmd
  rw [decode_of_opcode_rotl imm hopc] at h
  obtain ⟨-, hn, heq⟩ := decodeR_eq_ok.1 h
  cases heq
  exact hn

theorem wellFormed_of_decode {cmd imm : Word} {i : Instr} (h : decode cmd imm = .ok i) : i.wellFormed = true := by
  cases i with
  | rotl x n => exact bne_iff_ne.2 (amount_ne_zero_of_decode h)
  | _ => rfl

theorem canonical_of_decode {cmd imm : Word} {i : Instr} (h : decode cmd imm = .ok i) : i.canonical = i := by
  have hback := decodeOfEncodeIsTheCommand i (wellFormed_of_decode h)
  rw [encode_of_decode h, h] at hback
  exact (Except.ok.inj hback).symm

/-- Settles O55: its three parts are the lemmas `encode_of_decode`, `wellFormed_of_decode` and `canonical_of_decode`. -/
theorem encodeOfDecodeIsTheWords : Obligations.EncodeOfDecodeIsTheWords :=
  fun _ _ _ h => ⟨encode_of_decode h, wellFormed_of_decode h, canonical_of_decode h⟩

/-- Settles O56: each word pair is a closed term that the decoder evaluates. -/
theorem sampleWordsDecode : Obligations.SampleWordsDecode := by
  unfold Obligations.SampleWordsDecode
  decide

end Sys2Proof.Machine
end

section
/-! PROOFS. The arrangements and the tiers (40_arx.md R115, R119, 42_lane_engine.md R42, R161, 43_stream.md R182, R185): the
two scalar arrangements of a round, the lanes of a vector register, and what TRANSFORM leaves that does not depend on the tier
or on how the data are split at a block boundary. -/

namespace Sys2Proof.Machine

/-- Settles O41: the quadruples of a phase share no index (`reducedRound_eq_referenceRound`). -/
theorem scalarArrangementsAgree : Obligations.ScalarArrangementsAgree := reducedRound_eq_referenceRound

/-! ### Lanes of a vector register -/

/-- A word shifted to lane `m` fills that lane and leaves the other seven zero. -/
theorem extractLsb'_word_shiftLeft (x : Word) {m l : Nat} (hl : l < 8) :
    (x.setWidth 256 <<< (32 * m) : BitVec 256).extractLsb' (32 * l) 32 = if m = l then x else 0#32 := by
  ext k hk
  rcases Nat.lt_trichotomy m l with hlt | rfl | hgt
  · have hpast : x.getLsbD (32 * l + k - 32 * m) = false := BitVec.getLsbD_of_ge _ _ (by omega)
    simp [hpast, hlt.ne]
  · simp [BitVec.getLsbD_eq_getElem hk, show 32 * m + k < 256 by omega]
  · simp [show 32 * l + k < 32 * m by omega, hgt.ne']

/-- Lanes joined one after the other: a lane of the result is what was there before, or the lane that was joined. -/
theorem extractLsb'_foldl_lanes (u : LaneVec) (l : Fin 8) (ms : List (Fin 8)) (bits : BitVec 256) :
    (ms.foldl (fun (bits : BitVec 256) (m : Fin 8) => bits ||| u[m].setWidth 256 <<< (32 * m.val)) bits).extractLsb'
        (32 * l.val) 32 =
      bits.extractLsb' (32 * l.val) 32 ||| if l ∈ ms then u[l] else 0#32 := by
  induction ms generalizing bits with
  | nil => simp
  | cons m ms ih =>
    rw [List.foldl_cons, ih, BitVec.extractLsb'_or, extractLsb'_word_shiftLeft _ l.isLt, BitVec.or_assoc]
    congr 1
    by_cases hm : m = l
    · subst hm
      by_cases hmem : m ∈ ms <;> simp [hmem]
    · simp [Fin.val_ne_of_ne hm, Ne.symm hm]

theorem extractLsb'_laneBits (u : LaneVec) (l : Fin 8) : (laneBits u).extractLsb' (32 * l.val) 32 = u[l] := by
  rw [laneBits, extractLsb'_foldl_lanes, if_pos (List.mem_finRange l)]
  simp

/-- Settles O44: the place of a lane by `extractLsb'_laneBits`; the operations are defined lane by lane. -/
theorem vectorOperationsActPerLane : Obligations.VectorOperationsActPerLane := by
  unfold Obligations.VectorOperationsActPerLane
  intro u v n l
  refine ⟨extractLsb'_laneBits u l, by simp [vadd], by simp [vxor], fun _ hn => ?_⟩
  rw [← rotl32_eq_rotateLeft _ hn]
  simp [vrotl]

/-! ### TRANSFORM at any two tiers -/

/-- Settles O45: the outcomes of `transform_cases` are those of the same conditions at every tier, and where blocks are
consumed the bytes are the same (`transformBytes_eq_xorBytes`). -/
theorem tiersAreIndistinguishable : Obligations.TiersAreIndistinguishable := by
  unfold Obligations.TiersAreIndistinguishable
  intro t1 t2 s
  simp only [exec_transform]
  obtain ⟨hk, h1⟩ | ⟨hk, hd, h1⟩ | ⟨hk, hd, hover, h1⟩ | ⟨hk, hd, hfits, h1⟩ := transform_cases t1 s
  · exact ⟨_, _, h1, transform_of_not_kv t2 hk, rfl⟩
  · exact ⟨_, _, h1, transform_of_nil t2 hk hd, rfl⟩
  · exact ⟨_, _, h1, transform_of_overflow t2 hk hd hover, rfl⟩
  · refine ⟨_, _, h1, transform_of_fits t2 hk hd hfits, ?_⟩
    rw [transformBytes_eq_xorBytes t1, transformBytes_eq_xorBytes t2]
    rfl

/-! ### TRANSFORM in two parts -/

/-- What TRANSFORM makes of data depends on the key, the nonce and the counter alone. -/
theorem transformBytes_of_registers (tier : Tier) {s u : State} (h : u.registers = s.registers) (d : List Byte) :
    transformBytes tier u d = transformBytes tier s d := by
  simp only [State.registers, Registers.mk.injEq] at h
  obtain ⟨-, hexh, hkey, hnonce, hctr⟩ := h
  exact transformBytes_eq_of_nbi tier hkey hnonce (nbi_congr hexh hctr) d

theorem registers_advance {s u : State} (h : u.registers = s.registers) (n : Nat) :
    (u.advance n).registers = (s.advance n).registers := by
  simp only [State.registers, Registers.mk.injEq] at h
  obtain ⟨hkv, hexh, hkey, hnonce, hctr⟩ := h
  simp [State.registers, nbi_congr hexh hctr, hkv, hkey, hnonce]

/-- A TRANSFORM that fits, the empty one among them: its bytes, and the registers with the counter past its blocks. -/
theorem exec_transform_load (tier : Tier) {s : State} {d : List Byte} (hk : s.kv = true)
    (hfits : s.nbi + blocksFor d.length ≤ 2 ^ 32) :
    ∃ u, exec tier.transform (s.load d) = .next u ∧
      u.rsp = some { status := .ok, rdata := transformBytes tier s d } ∧
      u.registers = (s.advance (blocksFor d.length)).registers := by
  rw [exec_transform]
  by_cases hd : d = []
  · subst hd
    refine ⟨_, transform_of_nil tier (s := s.load []) hk rfl, rfl, ?_⟩
    rw [State.answer_registers, State.load_registers, show blocksFor ([] : List Byte).length = 0 from rfl,
      advance_zero hfits]
  · refine ⟨_, transform_of_fits tier (s := s.load d) hk hd hfits, ?_, ?_⟩
    · rw [State.answer_rsp, State.load_data, transformBytes_of_registers tier (State.load_registers s d)]
    · rw [registers_answer_hidden, registers_advance (State.load_registers s d), State.load_data]

theorem xorBytes_append {d ks : List Byte} (hlen : d.length = ks.length) (e ls : List Byte) :
    xorBytes (d ++ e) (ks ++ ls) = xorBytes d ks ++ xorBytes e ls := List.zipWith_append hlen

theorem blocksFor_add_of_dvd {m : Nat} (n : Nat) (hm : m % 64 = 0) : blocksFor (m + n) = blocksFor m + blocksFor n := by
  simp only [blocksFor]
  omega

/-- Data that end at a block boundary leave the rest its own blocks. -/
theorem transformBytes_append (tier : Tier) (s : State) {d1 : List Byte} (hd1 : d1.length % 64 = 0) (d2 : List Byte) :
    transformBytes tier s (d1 ++ d2) =
      transformBytes tier s d1 ++ transformBytes tier (s.advance (blocksFor d1.length)) d2 := by
  have hwhole : d1.length = (s.blocks s.ctr (blocksFor d1.length)).length := by
    rw [length_blocks, blocksFor]
    omega
  simp only [transformBytes_eq_xorBytes]
  rw [List.length_append, blocksFor_add_of_dvd _ hd1, blocks_add, xorBytes_append hwhole, State.advance_ctr,
    ofNat_nbi_add]
  rfl

/-- Settles O49: the second part starts where the first ended (`exec_transform_load`), with the bytes by
`transformBytes_append` and the counter by `advance_advance`. -/
theorem transformSplitsAtBlockBoundaries : Obligations.TransformSplitsAtBlockBoundaries := by
  unfold Obligations.TransformSplitsAtBlockBoundaries
  intro tier s d1 d2 hk hd1 hfits
  have hblocks : blocksFor (d1 ++ d2).length = blocksFor d1.length + blocksFor d2.length := by
    rw [List.length_append, blocksFor_add_of_dvd _ hd1]
  have hboth : s.nbi + (blocksFor d1.length + blocksFor d2.length) ≤ 2 ^ 32 := hblocks ▸ hfits
  have hfirst : s.nbi + blocksFor d1.length ≤ 2 ^ 32 := by omega
  obtain ⟨u, hu, hur, huregs⟩ := exec_transform_load tier hk hfirst
  have hunbi : u.nbi = s.nbi + blocksFor d1.length :=
    (nbi_congr (congrArg Registers.exh huregs) (congrArg Registers.ctr huregs)).trans (nbi_advance hfirst)
  have huk : u.kv = true := (congrArg Registers.kv huregs).trans hk
  obtain ⟨v, hv, hvr, hvregs⟩ := exec_transform_load tier (s := u) (d := d2) huk (by omega)
  obtain ⟨w, hw, hwr, hwregs⟩ := exec_transform_load tier (d := d1 ++ d2) hk hfits
  refine ⟨u, v, w, _, _, hu, hur, hv, hvr, hw, ?_, ?_⟩
  · rw [hwr, transformBytes_append tier s hd1, transformBytes_of_registers tier huregs]
  · rw [hwregs, hvregs, registers_advance huregs, advance_advance _ hfirst, hblocks]

end Sys2Proof.Machine
end

section
/-! PROOFS. Frames (10_state.md R35 to R40, 20_memory.md R66): what each command leaves as it was, what its response is made
from, and what its repetition does. -/

namespace Sys2Proof.Machine

/-! ### Commands that answer in place -/

/-- GETCTR reads DATA and the registers, and leaves everything but the response. -/
theorem exec_getctr_response (s : State) :
    ∃ (st : Status) (b : List Byte), ∀ u : State, u.data = s.data → u.registers = s.registers →
      exec .getctr u = .next (u.answer st b) := by
  rcases ne_or_eq s.data [] with hd | hd
  · exact ⟨_, _, fun u hu _ => exec_getctr_of_ne_nil (hu ▸ hd)⟩
  cases hk : s.kv with
  | false => exact ⟨_, _, fun u hu hg => exec_getctr_of_not_kv (hu.trans hd) ((congrArg Registers.kv hg).trans hk)⟩
  | true =>
    refine ⟨.ok, ser32 s.ctr ++ ser32 (flagWord s.exh), fun u hu hg => ?_⟩
    have hctr : u.ctr = s.ctr := congrArg Registers.ctr hg
    have hexh : u.exh = s.exh := congrArg Registers.exh hg
    rw [exec_getctr_of_kv (hu.trans hd) ((congrArg Registers.kv hg).trans hk), hctr, hexh]

theorem exec_qround_of_length {s : State} {d : List Byte} (hd : s.data = d) (hlen : d.length = 16) :
    exec .qround s = .next (s.answer .ok (serQuad (quarterRound (payloadQuad d)))) := by
  simp only [exec, execQround, hd, hlen, ne_eq, not_true_eq_false, if_false, complete_eq]

theorem exec_blockfn_of_length {raw : Bool} {s : State} {d : List Byte} (hd : s.data = d) (hlen : d.length = 64) :
    exec (.blockfn raw) s =
      .next (State.answer { s with hidden := s.hidden.runScalar referenceRound raw (payloadWords 16 0 d) } .ok
        (serWords (Vector.ofFn fun i : Fin 16 =>
          if raw then (core20 (payloadWords 16 0 d))[i]
          else (core20 (payloadWords 16 0 d))[i] + (payloadWords 16 0 d)[i]).toList)) := by
  rw [← emit_runScalar_referenceRound raw (payloadWords 16 0 d) s.hidden]
  simp only [exec, execBlockfn, Config.blockBytes, hd, hlen, ne_eq, not_true_eq_false, if_false, complete_eq]

/-- The response of a diagnostic command is made from its operands and DATA; it leaves everything but the response and the
hidden registers. -/
theorem exec_diagnostic_response {i : Instr} (hi : (∃ x n, i = .rotl x n) ∨ i = .qround ∨ (∃ b, i = .blockfn b))
    (d : List Byte) :
    ∃ (st : Status) (b : List Byte), ∀ u : State, u.data = d →
      ∃ h : Hidden, exec i u = .next (State.answer { u with hidden := h } st b) := by
  obtain ⟨x, n, rfl⟩ | rfl | ⟨raw, rfl⟩ := hi
  · by_cases hn : n = 0#5
    · exact ⟨.illegalCommand, [], fun u _ => ⟨u.hidden, by simp [exec, execRotl, hn, raise_eq]⟩⟩
    rcases ne_or_eq d [] with hd | hd
    · exact ⟨_, _, fun u hu => ⟨u.hidden, exec_rotl_of_ne_nil hn (hu ▸ hd)⟩⟩
    · exact ⟨_, _, fun u hu => ⟨u.hidden, exec_rotl_of_nil hn (hu.trans hd)⟩⟩
  · by_cases hlen : d.length = 16
    · exact ⟨_, _, fun u hu => ⟨u.hidden, exec_qround_of_length hu hlen⟩⟩
    · exact ⟨_, _, fun u hu => ⟨u.hidden, exec_qround_of_length_ne (hu ▸ hlen)⟩⟩
  · by_cases hlen : d.length = 64
    · exact ⟨_, _, fun u hu => ⟨_, exec_blockfn_of_length hu hlen⟩⟩
    · exact ⟨_, _, fun u hu => ⟨u.hidden, exec_blockfn_of_length_ne (hu ▸ hlen)⟩⟩

/-- Settles O28: the same response from both states (`exec_diagnostic_response`). -/
theorem diagnosticsReadAndWriteNoRegister : Obligations.DiagnosticsReadAndWriteNoRegister := by
  unfold Obligations.DiagnosticsReadAndWriteNoRegister
  intro i s g hi
  obtain ⟨st, b, hresp⟩ := exec_diagnostic_response hi s.data
  obtain ⟨h, ht⟩ := hresp s rfl
  obtain ⟨h', hu⟩ := hresp { s with kv := g.kv, exh := g.exh, key := g.key, nonce := g.nonce, ctr := g.ctr } rfl
  exact ⟨_, _, ht, hu, rfl, rfl, rfl⟩

/-! ### The control and the keystream commands -/

/-- CONSTRUCT raises, or it loads 44 bytes. -/
theorem exec_construct_cases (k n : BitVec 8) (s : State) :
    (∃ st, st ≠ .ok ∧ exec (.construct k n) s = .next (s.answer st [])) ∨
    s.data.length = k.toNat + n.toNat ∧ k.toNat = 32 ∧ n.toNat = 12 := by
  by_cases hlen : s.data.length = k.toNat + n.toNat
  · by_cases hk : k.toNat = 32
    · by_cases hn : n.toNat = 12
      · exact .inr ⟨hlen, hk, hn⟩
      · exact .inl ⟨_, by decide, exec_construct_of_nonce_ne hlen hk hn⟩
    · exact .inl ⟨_, by decide, exec_construct_of_key_ne hlen hk⟩
  · exact .inl ⟨_, by decide, exec_construct_of_length_ne hlen⟩

theorem exec_setctr_or_seek {i : Instr} {v : Word} (hi : i = .setctr v ∨ i = .seek v) (s : State) :
    exec i s = setCounter v s := by
  obtain rfl | rfl := hi <;> rfl

/-- Settles O29: each outcome of each command is such an update. -/
theorem controlCommandsFrame : Obligations.ControlCommandsFrame := by
  unfold Obligations.ControlCommandsFrame
  intro s t
  refine ⟨fun v i hi ht => ?_, fun ht => ?_, fun k n ht => ?_⟩
  · rw [exec_setctr_or_seek hi] at ht
    obtain ⟨-, hu⟩ | ⟨-, -, hu⟩ | ⟨-, -, hu⟩ := setCounter_cases v s <;> cases ht.symm.trans hu <;> rfl
  · obtain ⟨st, b, hresp⟩ := exec_getctr_response s
    cases ht.symm.trans (hresp s rfl rfl)
    rfl
  · obtain ⟨st, -, hu⟩ | ⟨hlen, hk, hn⟩ := exec_construct_cases k n s
    · cases ht.symm.trans hu
      rfl
    · cases ht.symm.trans (exec_construct_of_sizes hlen hk hn)
      rfl

/-- Settles O30: each outcome of `exec_streamsBlocks` is such an update. -/
theorem keystreamCommandsFrame : Obligations.KeystreamCommandsFrame := by
  unfold Obligations.KeystreamCommandsFrame
  intro i s t hi ht
  cases exec_streamsBlocks hi s with
  | otherCheck st _ _ _ hu => cases ht.symm.trans hu; rfl
  | overflow _ _ _ hu => cases ht.symm.trans hu; rfl
  | noBlock _ _ hu => cases ht.symm.trans hu; rfl
  | consumed _ _ h b hu => cases ht.symm.trans hu; rfl

/-! ### Commands whose response is not made from KEY and NONCE -/

/-- Both answer, with equal responses. -/
def RespondAlike (o o' : Host.Outcome State Fault Refusal) : Prop :=
  ∃ t u : State, o = .next t ∧ o' = .next u ∧ u.rsp = t.rsp

theorem respondAlike_raise (st : Status) (s s' : State) : RespondAlike (raise st s) (raise st s') :=
  ⟨_, _, rfl, rfl, rfl⟩

theorem respondAlike_complete (b : List Byte) (s s' : State) : RespondAlike (complete b s) (complete b s') :=
  ⟨_, _, rfl, rfl, rfl⟩

theorem RespondAlike.ite {p : Prop} [Decidable p] {a b a' b' : Host.Outcome State Fault Refusal}
    (ha : RespondAlike a a') (hb : RespondAlike b b') : RespondAlike (if p then a else b) (if p then a' else b') := by
  split
  · exact ha
  · exact hb

theorem setCounter_respondAlike (v : Word) (s : State) (key : Vector Word 8) (nonce : Vector Word 3) :
    RespondAlike (setCounter v s) (setCounter v { s with key := key, nonce := nonce }) :=
  .ite (respondAlike_raise _ _ _) (.ite (respondAlike_raise _ _ _) (respondAlike_complete _ _ _))

/-- The checks of these commands look at neither, and what they complete with is made of CTR, EXH and DATA. -/
theorem exec_respondAlike {i : Instr} (hi : isKeystream i = false) (s : State) (key : Vector Word 8)
    (nonce : Vector Word 3) : RespondAlike (exec i s) (exec i { s with key := key, nonce := nonce }) := by
  cases i with
  | construct k n =>
    exact .ite (respondAlike_raise _ _ _) (.ite (respondAlike_raise _ _ _) (.ite (respondAlike_raise _ _ _)
      (respondAlike_complete _ _ _)))
  | setctr v => exact setCounter_respondAlike v s key nonce
  | seek v => exact setCounter_respondAlike v s key nonce
  | getctr =>
    exact .ite (respondAlike_raise _ _ _) (.ite (respondAlike_raise _ _ _) (respondAlike_complete _ _ _))
  | rotl x n =>
    exact .ite (respondAlike_raise _ _ _) (.ite (respondAlike_raise _ _ _) (respondAlike_complete _ _ _))
  | qround => exact .ite (respondAlike_raise _ _ _) (respondAlike_complete _ _ _)
  | blockfn raw => exact .ite (respondAlike_raise _ _ _) (respondAlike_complete _ _ _)
  | ksblock | ksbatch | transformRef | transformRo | transformVec | encrypt _ | decrypt _ => cases hi

/-- Settles O32: command by command in `exec_respondAlike`. -/
theorem onlyKeystreamDependsOnTheKey : Obligations.OnlyKeystreamDependsOnTheKey :=
  fun _ s key nonce hi => exec_respondAlike hi s key nonce

/-! ### Repetition -/

/-- GETCTR and the diagnostic commands, again with the same payload and registers. -/
theorem exec_again_in_place {i : Instr}
    (hi : i = .getctr ∨ (∃ x n, i = .rotl x n) ∨ i = .qround ∨ (∃ b, i = .blockfn b)) (s : State) :
    ∃ t u : State, exec i s = .next t ∧ exec i (t.load s.data) = .next u ∧ u.rsp = t.rsp ∧
      t.registers = s.registers ∧ u.registers = s.registers := by
  obtain rfl | hi := hi
  · obtain ⟨st, b, hresp⟩ := exec_getctr_response s
    exact ⟨_, _, hresp s rfl rfl, hresp ((s.answer st b).load s.data) rfl rfl, rfl, rfl, rfl⟩
  · obtain ⟨st, b, hresp⟩ := exec_diagnostic_response hi s.data
    obtain ⟨h, ht⟩ := hresp s rfl
    obtain ⟨h', hu⟩ := hresp ((State.answer { s with hidden := h } st b).load s.data) rfl
    exact ⟨_, _, ht, hu, rfl, rfl, rfl⟩

/-- An error leaves the registers and DATA, so the same check finds it again. -/
theorem exec_again_of_error {i : Instr} {s : State} {st : Status} (hne : st ≠ .ok)
    (ht : exec i s = .next (s.answer st [])) :
    ∃ t u : State, exec i s = .next t ∧ exec i (t.load s.data) = .next u ∧ u.registers = t.registers := by
  have hfirst : firstFailing i s.data.length s = st :=
    ((exec_answersWith_firstFailing i s).status_eq ht rfl).symm
  have hagain : firstFailing i s.data.length ((s.answer st []).load s.data) = st := by
    rw [← hfirst]
    exact firstFailing_congr i _ rfl rfl
  exact ⟨_, _, ht, exec_of_firstFailing hagain hne, rfl⟩

/-- CONSTRUCT, SETCTR and SEEK load the same values again. -/
theorem exec_again_of_control {i : Instr} (hi : (∃ k n, i = .construct k n) ∨ (∃ v, i = .setctr v ∨ i = .seek v))
    (s : State) :
    ∃ t u : State, exec i s = .next t ∧ exec i (t.load s.data) = .next u ∧ u.registers = t.registers := by
  obtain ⟨k, n, rfl⟩ | ⟨v, hi⟩ := hi
  · obtain ⟨st, hne, ht⟩ | ⟨hlen, hk, hn⟩ := exec_construct_cases k n s
    · exact exec_again_of_error hne ht
    · exact ⟨_, _, exec_construct_of_sizes hlen hk hn, exec_construct_of_sizes hlen hk hn, rfl⟩
  · have hexec := exec_setctr_or_seek hi
    obtain ⟨-, ht⟩ | ⟨-, -, ht⟩ | ⟨hd, hk, ht⟩ := setCounter_cases v s
    · exact exec_again_of_error (by decide) ((hexec s).trans ht)
    · exact exec_again_of_error (by decide) ((hexec s).trans ht)
    · have hnil : s.data = [] := List.length_eq_zero_iff.1 hd
      exact ⟨_, _, (hexec s).trans ht, (hexec _).trans (exec_setctr_of_kv v hnil hk), rfl⟩

/-- Settles O33: the two lemmas above, and of a keystream command the outcomes of `exec_streamsBlocks`, where only the one
that consumes blocks is OK. -/
theorem repeatedCommands : Obligations.RepeatedCommands := by
  unfold Obligations.RepeatedCommands
  refine ⟨fun _ s hi => exec_again_in_place hi s, fun _ s hi => exec_again_of_control hi s, fun i s hi hneed => ?_⟩
  cases exec_streamsBlocks hi s with
  | otherCheck st _ hok _ ht => exact ⟨_, _, ht, rfl, fun h => absurd h hok⟩
  | overflow _ _ _ ht => exact ⟨_, _, ht, rfl, nofun⟩
  | noBlock _ hzero => omega
  | consumed _ hfits h b ht =>
    have hadv := nbi_advance hfits
    refine ⟨_, _, ht, rfl, fun _ hsame => ?_⟩
    have hstill : (s.advance (blocksNeeded i s.data.length)).nbi = s.nbi := hsame
    omega

end Sys2Proof.Machine
end

section
/-! PROOFS. The port's outputs (70_reset_and_hazards.md R255, 60_exceptions.md R223). The status and the length offered are
those of the response the command will answer, because both follow the same table of checks; a byte offered early is final,
because TRANSFORM of a first part of the payload gives the first bytes of TRANSFORM of the whole. -/

namespace Sys2Proof.Machine

/-! ### The length of a response -/

/-- If the response is OK, it has `n` bytes. -/
def OkLength (n : Nat) (o : Host.Outcome State Fault Refusal) : Prop :=
  ∀ (t : State) (r : Response), o = .next t → t.rsp = some r → r.status = .ok → r.rdata.length = n

theorem okLength_raise (n : Nat) {st : Status} (hst : st ≠ .ok) (s : State) : OkLength n (raise st s) := by
  intro t r ht hr hok
  cases ht
  cases hr
  exact absurd hok hst

theorem okLength_complete {n : Nat} {b : List Byte} (hb : b.length = n) (s : State) : OkLength n (complete b s) := by
  intro t r ht hr _
  cases ht
  cases hr
  exact hb

theorem OkLength.ite {n : Nat} {p : Prop} [Decidable p] {o o' : Host.Outcome State Fault Refusal} (h : OkLength n o)
    (h' : OkLength n o') : OkLength n (if p then o else o') := by
  split
  · exact h
  · exact h'

theorem setCounter_okLength (v : Word) (s : State) : OkLength 0 (setCounter v s) :=
  .ite (okLength_raise 0 (by decide) s) (.ite (okLength_raise 0 (by decide) s) (okLength_complete rfl _))

theorem transform_okLength (tier : Tier) (s : State) : OkLength s.data.length (transform tier s) := by
  rintro t ⟨st, b⟩ ht hr rfl
  obtain ⟨rfl, -⟩ := transform_ok ht hr
  exact length_transformBytes tier s s.data

theorem exec_okLength (i : Instr) (s : State) : OkLength (rdataLen i s.data.length) (exec i s) := by
  cases i with
  | construct k n =>
    exact .ite (okLength_raise _ (by decide) s) (.ite (okLength_raise _ (by decide) s)
      (.ite (okLength_raise _ (by decide) s) (okLength_complete rfl _)))
  | setctr v => exact setCounter_okLength v s
  | seek v => exact setCounter_okLength v s
  | getctr =>
    exact .ite (okLength_raise _ (by decide) s) (.ite (okLength_raise _ (by decide) s) (okLength_complete rfl s))
  | rotl x n =>
    exact .ite (okLength_raise _ (by decide) s) (.ite (okLength_raise _ (by decide) s) (okLength_complete rfl s))
  | qround => exact .ite (okLength_raise _ (by decide) s) (okLength_complete rfl s)
  | blockfn raw =>
    exact .ite (okLength_raise _ (by decide) s) (okLength_complete (length_emit_runScalar _ raw _ _) _)
  | ksblock =>
    exact .ite (okLength_raise _ (by decide) s) (.ite (okLength_raise _ (by decide) s)
      (.ite (okLength_raise _ (by decide) s) (okLength_complete (length_emit_runScalar _ false _ _) _)))
  | ksbatch =>
    exact .ite (okLength_raise _ (by decide) s) (.ite (okLength_raise _ (by decide) s)
      (.ite (okLength_raise _ (by decide) s) (okLength_complete (length_emit_runLanes _ _) _)))
  | transformRef | transformRo | transformVec | encrypt tier | decrypt tier => exact transform_okLength _ s

/-! ### The status and the length of a request's response -/

section
variable {cmd imm : Word} {i : Instr} {e : DecodeReject}

theorem execute_of_decode (h : decode cmd imm = .ok i) (s : State) : execute cmd imm s = exec i s := by
  rw [execute, h]

theorem requestStatus_of_decode (h : decode cmd imm = .ok i) (n : Nat) (s : State) :
    requestStatus cmd imm n s = firstFailing i n s := by
  rw [requestStatus, h]

theorem requestRspLen_of_decode (h : decode cmd imm = .ok i) (n : Nat) (s : State) :
    requestRspLen cmd imm n s = if firstFailing i n s = .ok then rdataLen i n else 0 := by
  rw [requestRspLen, h]

theorem requestStatus_of_error (h : decode cmd imm = .error e) (n : Nat) (s : State) :
    requestStatus cmd imm n s = .illegalCommand := by
  rw [requestStatus, h]

theorem requestRspLen_of_error (h : decode cmd imm = .error e) (n : Nat) (s : State) :
    requestRspLen cmd imm n s = 0 := by
  rw [requestRspLen, h]

end

theorem execute_response (cmd imm : Word) (s : State) :
    ∃ (t : State) (r : Response), execute cmd imm s = .next t ∧ t.rsp = some r ∧
      r.status = requestStatus cmd imm s.data.length s ∧ r.rdata.length = requestRspLen cmd imm s.data.length s := by
  cases hd : decode cmd imm with
  | error e =>
    rw [requestStatus_of_error hd, requestRspLen_of_error hd]
    exact ⟨_, _, isIllegal_of_decode_error hd s, rfl, rfl, rfl⟩
  | ok i =>
    rw [execute_of_decode hd, requestStatus_of_decode hd, requestRspLen_of_decode hd]
    obtain ⟨t, r, ht, hr, hst⟩ := exec_answersWith_firstFailing i s
    refine ⟨t, r, ht, hr, hst, ?_⟩
    by_cases hok : firstFailing i s.data.length s = .ok
    · rw [if_pos hok, exec_okLength i s t r ht hr (hst.trans hok)]
    · obtain ⟨hbytes, -⟩ := (exec_answers i s).eq_of_status_ne_ok ht hr (hst ▸ hok)
      rw [if_neg hok, hbytes, List.length_nil]

/-! ### rsp_status and rsp_len -/

section
variable {s : State} {r : Response}

theorem rspStatus_of_none (h : s.rsp = none) (p : Transfer) :
    s.rspStatus p = requestStatus p.cmd p.imm p.len.toNat s := by
  rw [State.rspStatus, h]

theorem rspLen_of_none (h : s.rsp = none) (p : Transfer) :
    s.rspLen p = requestRspLen p.cmd p.imm p.len.toNat s := by
  rw [State.rspLen, h]

theorem rspStatus_of_some (h : s.rsp = some r) (p : Transfer) : s.rspStatus p = r.status := by
  rw [State.rspStatus, h]

theorem rspLen_of_some (h : s.rsp = some r) (p : Transfer) : s.rspLen p = r.rdata.length := by
  rw [State.rspLen, h]

theorem rdataSoFar_of_some (h : s.rsp = some r) (p : Transfer) : s.rdataSoFar p = r.rdata := by
  rw [State.rdataSoFar, h]

end

/-- The status and the length offered before the payload is complete are those of the response to any completion. -/
theorem early_header_is_final {s : State} {p : Transfer} {more : List Byte} (hnone : s.rsp = none)
    (hlen : (s.data ++ more).length = p.len.toNat) :
    ∃ (u : State) (r : Response), execute p.cmd p.imm { s with data := s.data ++ more } = .next u ∧ u.rsp = some r ∧
      s.rspStatus p = r.status ∧ s.rspLen p = r.rdata.length := by
  obtain ⟨u, r, hu, hr, hst, hb⟩ := execute_response p.cmd p.imm { s with data := s.data ++ more }
  rw [hlen] at hst hb
  refine ⟨u, r, hu, hr, ?_, ?_⟩
  · rw [rspStatus_of_none hnone, hst]
    exact requestStatus_congr _ _ _ rfl rfl
  · rw [rspLen_of_none hnone, hb]
    exact requestRspLen_congr _ _ _ rfl rfl

/-- Settles O57: `execute_response`, and the status and the length look at KV and NBI only. -/
theorem responseHeaderNeedsNoPayload : Obligations.ResponseHeaderNeedsNoPayload := by
  unfold Obligations.ResponseHeaderNeedsNoPayload
  refine ⟨fun cmd imm data s => ?_, fun s t more _ hnone hlen => early_header_is_final hnone hlen,
    fun s t r _ hsome => ⟨rspStatus_of_some hsome t, rspLen_of_some hsome t⟩⟩
  obtain ⟨u, r, hu, hr, hst, hb⟩ := execute_response cmd imm (s.load data)
  exact ⟨u, r, hu, hr, hst.trans (requestStatus_congr _ _ _ rfl rfl), hb.trans (requestRspLen_congr _ _ _ rfl rfl)⟩

/-! ### Bytes offered early -/

/-- Keystream beyond the data is not used. -/
theorem take_xorBytes_append {d1 ks : List Byte} (hle : d1.length ≤ ks.length) (d2 ls : List Byte) :
    (xorBytes (d1 ++ d2) (ks ++ ls)).take d1.length = xorBytes d1 ks := by
  have hall : (xorBytes d1 ks).take d1.length = xorBytes d1 ks := List.take_of_length_le (length_xorBytes hle).le
  rw [← hall]
  simp only [xorBytes, List.take_zipWith, List.take_left, List.take_append_of_le_length hle, List.take_length]

/-- TRANSFORM of a first part of the payload gives the first bytes of TRANSFORM of the whole. -/
theorem take_transformBytes_append (tier : Tier) (s : State) (d1 d2 : List Byte) :
    (transformBytes tier s (d1 ++ d2)).take d1.length = transformBytes tier s d1 := by
  have hmore : blocksFor d1.length ≤ blocksFor (d1 ++ d2).length := by
    simp only [List.length_append, blocksFor]
    omega
  obtain ⟨k, hk⟩ := Nat.exists_eq_add_of_le hmore
  rw [transformBytes_eq_xorBytes, transformBytes_eq_xorBytes, hk, blocks_add,
    take_xorBytes_append (length_le_length_blocks ..)]

theorem byteAt_transformBytes_append (tier : Tier) (s : State) {d1 : List Byte} (d2 : List Byte) {k : Nat}
    (hk : k < d1.length) : byteAt (transformBytes tier s (d1 ++ d2)) k = byteAt (transformBytes tier s d1) k := by
  rw [← List.take_append_drop d1.length (transformBytes tier s (d1 ++ d2)), take_transformBytes_append,
    byteAt_append_of_lt _ (by rwa [length_transformBytes])]

/-- Before the payload is complete only TRANSFORM has bytes, and only if its checks pass. -/
theorem rdataSoFar_of_none {s : State} (hnone : s.rsp = none) {p : Transfer} {k : Nat}
    (hk : k < (s.rdataSoFar p).length) :
    ∃ i tier, decode p.cmd p.imm = .ok i ∧ transformTier i = some tier ∧ firstFailing i p.len.toNat s = .ok ∧
      s.rdataSoFar p = transformBytes tier s s.data := by
  unfold State.rdataSoFar at hk ⊢
  rw [hnone] at hk ⊢
  cases hi : decode p.cmd p.imm with
  | error e => simp [hi] at hk
  | ok i =>
    cases ht : transformTier i with
    | none => simp [hi, ht] at hk
    | some tier =>
      by_cases hok : firstFailing i p.len.toNat s = .ok
      · exact ⟨i, tier, rfl, ht, hok, by simp [ht, hok]⟩
      · simp [hi, ht, hok] at hk

/-- A TRANSFORM whose checks pass answers its bytes. -/
theorem exec_transform_of_firstFailing {i : Instr} {tier : Tier} (hi : transformTier i = some tier) {s : State}
    (hok : firstFailing i s.data.length s = .ok) :
    ∃ t, exec i s = .next t ∧ t.rsp = some { status := .ok, rdata := transformBytes tier s s.data } := by
  obtain ⟨t, ⟨st, b⟩, ht, hr, hst⟩ := exec_answersWith_firstFailing i s
  obtain rfl := hst.trans hok
  obtain ⟨rfl, -⟩ := transform_ok ((exec_of_transformTier hi s).symm.trans ht) hr
  exact ⟨t, ht, hr⟩

theorem doutValid_of_busy {s : State} {p : Transfer} (hp : s.port = .busy p) :
    s.doutValid = true ↔ p.statusSent = true ∧ p.sent < s.rspLen p ∧ p.sent < (s.rdataSoFar p).length := by
  simp only [State.doutValid, hp, Bool.and_eq_true, decide_eq_true_eq, and_assoc]

/-- A byte that is known before the payload is complete is a byte of the response to any completion of the payload. -/
theorem early_byte_is_final {s : State} {p : Transfer} {more : List Byte} (hnone : s.rsp = none)
    (hlen : (s.data ++ more).length = p.len.toNat) (hk : p.sent < (s.rdataSoFar p).length) :
    ∃ (u : State) (r : Response), execute p.cmd p.imm { s with data := s.data ++ more } = .next u ∧ u.rsp = some r ∧
      p.sent < r.rdata.length ∧ s.doutData p = byteAt r.rdata p.sent := by
  obtain ⟨i, tier, hi, htier, hok, hbytes⟩ := rdataSoFar_of_none hnone hk
  rw [hbytes, length_transformBytes] at hk
  have hok' : firstFailing i (s.data ++ more).length { s with data := s.data ++ more } = .ok := by
    rw [hlen, ← hok]
    exact firstFailing_congr i _ rfl rfl
  obtain ⟨u, hu, hr⟩ := exec_transform_of_firstFailing (s := { s with data := s.data ++ more }) htier hok'
  refine ⟨u, _, (execute_of_decode hi _).trans hu, hr, ?_, ?_⟩
  · rw [length_transformBytes, List.length_append]
    omega
  · have hsame : transformBytes tier s (s.data ++ more) =
        transformBytes tier { s with data := s.data ++ more } (s.data ++ more) :=
      transformBytes_of_registers tier (u := s) (s := { s with data := s.data ++ more }) rfl _
    rw [State.doutData, hbytes, ← byteAt_transformBytes_append tier s more hk, hsame]

/-- Settles O60: `take_transformBytes_append`, and its consequence `early_byte_is_final`; after the execution the bytes known
are those of the response. -/
theorem earlyTransformBytesAreFinal : Obligations.EarlyTransformBytesAreFinal := by
  unfold Obligations.EarlyTransformBytesAreFinal
  refine ⟨take_transformBytes_append, fun s t more hp hnone hlen hv => ?_, fun s t r hp hsome hv => ?_⟩
  · obtain ⟨-, -, hk⟩ := (doutValid_of_busy hp).1 hv
    exact early_byte_is_final hnone hlen hk
  · obtain ⟨-, -, hk⟩ := (doutValid_of_busy hp).1 hv
    rw [rdataSoFar_of_some hsome] at hk
    exact ⟨hk, by rw [State.doutData, rdataSoFar_of_some hsome]⟩

end Sys2Proof.Machine
end

section
/-! PROOFS. What one step does (60_exceptions.md R235, 70_reset_and_hazards.md R250, R251, R255, R256): reset, idling, the
whole request as one step, the transfers that have no move, and what a step can change of the host's side and of the key. -/

namespace Sys2Proof.Machine

/-! ### Fixed values -/

/-- Settles O1: each is a field or a word written out in `State.reset` and `cipherState`. -/
theorem resetClearsFlagsAndIsReady : Obligations.ResetClearsFlagsAndIsReady :=
  ⟨rfl, rfl, rfl, rfl, fun _ => ⟨rfl, rfl, rfl, rfl⟩⟩

theorem Status.code_injective : ∀ a b : Status, a.code = b.code → a = b := by
  intro a b
  cases a <;> cases b <;> decide

/-- Settles O25: the codes by definition, and `Status.code_injective`. -/
theorem statusCodesAreAsListed : Obligations.StatusCodesAreAsListed :=
  ⟨rfl, rfl, rfl, rfl, rfl, rfl, rfl, Status.code_injective⟩

theorem doubleround_zeros : doubleround (Vector.replicate 16 0#32) = Vector.replicate 16 0#32 := by decide

/-- Settles O51: the all-zero array is a fixed point of the double round. -/
theorem coreOfZerosIsZeros : Obligations.CoreOfZerosIsZeros :=
  Function.iterate_fixed doubleround_zeros 10

/-! ### Idling, reset, and a whole request -/

/-- Settles O3: with no action pending `step` takes its first branch. -/
theorem idleEngineKeepsItsState : Obligations.IdleEngineKeepsItsState := by
  unfold Obligations.IdleEngineKeepsItsState
  intro s hq
  rw [step, hq]

/-- Settles O6: the next state is `State.engineReset` of the state with the reset taken from the inbox. -/
theorem resetAbortsTheTransaction : Obligations.ResetAbortsTheTransaction := by
  unfold Obligations.ResetAbortsTheTransaction
  intro s rest hq
  exact ⟨State.engineReset { s with inbox := rest }, step_cons hq, rfl, rfl, rfl, rfl, rfl, rfl, rfl, rfl⟩

/-- What an execution leaves as it was. -/
structure KeptAround (s t : State) : Prop where
  data : t.data = s.data
  port : t.port = s.port
  inbox : t.inbox = s.inbox
  outbox : t.outbox = s.outbox
  params : t.params = s.params
  freeCount : t.freeCount = s.freeCount

theorem execute_keeps {cmd imm : Word} {s t : State} (h : execute cmd imm s = .next t) :
    ∃ r : Response, t.rsp = some r ∧ KeptAround s t := by
  obtain ⟨u, st, b, hu, -, hkeep⟩ := execute_answers cmd imm s
  cases h.symm.trans hu
  refine ⟨_, rfl, ?_⟩
  constructor <;> rw [hkeep] <;> rfl

/-- A request of fewer than 2^40 bytes at a ready port is executed and its response delivered. -/
theorem step_of_execute {s t : State} {r : Request} {rest : List HostEvent} (hp : s.port = .idle)
    (hq : s.inbox = .command r :: rest) (hlen : r.data.length < 2 ^ 40)
    (ht : execute r.cmd r.imm (State.load { s with inbox := rest } r.data) = .next t) : step s = .next t.deliver := by
  rw [step_cons hq, handle]
  exact transact_of_execute hp hlen ht

/-- Settles O4: the execution exists and keeps the rest of the state (`execute_keeps`), and the step delivers it. -/
theorem stepExecutesTheDecodedCommand : Obligations.StepExecutesTheDecodedCommand := by
  unfold Obligations.StepExecutesTheDecodedCommand
  intro s r rest i hp hq hlen hi
  obtain ⟨t, ht⟩ := execute_next r.cmd r.imm (State.load { s with inbox := rest } r.data)
  obtain ⟨a, ha, hkeep⟩ := execute_keeps ht
  refine ⟨t, a, (execute_of_decode hi _).symm.trans ht, ha, step_of_execute hp hq hlen ht, ?_, rfl, hkeep.inbox, rfl,
    rfl, rfl, hkeep.params⟩
  rw [State.deliver_outbox, hkeep.outbox, ha]
  rfl

/-- Settles O5: such words are answered with IllegalCommand in every state (`isIllegal_of_decode_error`). -/
theorem undecodableWordsAreAnsweredIllegal : Obligations.UndecodableWordsAreAnsweredIllegal := by
  unfold Obligations.UndecodableWordsAreAnsweredIllegal
  intro s r rest e hp hq hlen hd
  exact ⟨_, step_of_execute hp hq hlen (isIllegal_of_decode_error hd _), rfl, rfl, rfl, rfl, rfl⟩

/-- Settles O10: the bound is the test that the atomic request makes before it is executed. -/
theorem overlongPayloadHasNoMove : Obligations.OverlongPayloadHasNoMove := by
  unfold Obligations.OverlongPayloadHasNoMove
  intro s r rest hp hq hlen
  rw [step_cons hq, handle]
  simp only [transact, hp, Config.lenBits, if_neg (Nat.not_lt.2 hlen)]

/-! ### Transfers that the signals do not allow -/

section
variable {s : State} {p : Transfer}

theorem reqReady_iff : s.reqReady = true ↔ s.port = .idle := by
  unfold State.reqReady
  split <;> simp_all

theorem busy_of_reqReady_eq_false (h : s.reqReady = false) : ∃ p, s.port = .busy p := by
  cases hp : s.port with
  | idle => simp [reqReady_iff.2 hp] at h
  | busy p => exact ⟨p, rfl⟩

theorem dinReady_of_busy (hp : s.port = .busy p) : s.dinReady = true ↔ s.data.length < p.len.toNat := by
  simp only [State.dinReady, hp, decide_eq_true_eq]

theorem rspValid_of_busy (hp : s.port = .busy p) : s.rspValid = true ↔ p.statusSent = false := by
  simp only [State.rspValid, hp, Bool.not_eq_true']

end

theorem transact_of_reqReady_eq_false (r : Request) {s : State} (h : s.reqReady = false) :
    transact r s = .refused .transferImpossible := by
  obtain ⟨p, hp⟩ := busy_of_reqReady_eq_false h
  simp only [transact, hp]

theorem requestTransfer_of_reqReady_eq_false (cmd imm : Word) (len : BitVec 40) {s : State} (h : s.reqReady = false) :
    requestTransfer cmd imm len s = .refused .transferImpossible := by
  obtain ⟨p, hp⟩ := busy_of_reqReady_eq_false h
  simp only [requestTransfer, hp]

theorem payloadTransfer_of_dinReady_eq_false (b : Byte) {s : State} (h : s.dinReady = false) :
    payloadTransfer b s = .refused .transferImpossible := by
  cases hp : s.port <;> simp [payloadTransfer, hp, h]

theorem responseTransfer_of_rspValid_eq_false {s : State} (h : s.rspValid = false) :
    responseTransfer s = .refused .transferImpossible := by
  cases hp : s.port <;> simp [responseTransfer, hp, h]

theorem byteTransfer_of_doutValid_eq_false {s : State} (h : s.doutValid = false) :
    byteTransfer s = .refused .transferImpossible := by
  cases hp : s.port <;> simp [byteTransfer, hp, h]

/-- Settles O8: one lemma for each transfer and its signal, none of which looks at the actions to come. -/
theorem brokenHandshakeHasNoMove : Obligations.BrokenHandshakeHasNoMove := by
  unfold Obligations.BrokenHandshakeHasNoMove
  intro s e rest hq hlow
  rw [step_cons hq]
  obtain ⟨⟨r, rfl⟩, h⟩ | ⟨⟨c, m, n, rfl⟩, h⟩ | ⟨⟨b, rfl⟩, h⟩ | ⟨rfl, h⟩ | ⟨rfl, h⟩ := hlow
  · exact transact_of_reqReady_eq_false r h
  · exact requestTransfer_of_reqReady_eq_false c m n h
  · exact payloadTransfer_of_dinReady_eq_false b h
  · exact responseTransfer_of_rspValid_eq_false h
  · exact byteTransfer_of_doutValid_eq_false ((doutValid_inbox s rest).trans h)

/-! ### The host's side -/

/-- At most one response is delivered, after those before; the actions to come and the parameter stay. -/
def KeepsHostSide (s t : State) : Prop :=
  (t.outbox = s.outbox ∨ ∃ r : Response, t.outbox = s.outbox ++ [r]) ∧ t.inbox = s.inbox ∧ t.params = s.params

theorem settle_keepsHostSide (p : Transfer) {s t : State} (hout : t.outbox = s.outbox) (hin : t.inbox = s.inbox)
    (hparams : t.params = s.params) : KeepsHostSide s (t.settle p) := by
  obtain ⟨⟨r, hr, -⟩, h⟩ | ⟨-, h⟩ := settle_cases p t
  · rw [h]
    exact ⟨.inr ⟨r, by rw [State.deliver_outbox, hr, hout]; rfl⟩, hin, hparams⟩
  · rw [h]
    exact ⟨.inl hout, hin, hparams⟩

theorem runWhenFed_hostSide {p : Transfer} {s t : State} (h : State.runWhenFed p s = .next t) :
    t.outbox = s.outbox ∧ t.inbox = s.inbox ∧ t.params = s.params := by
  obtain ⟨-, rfl⟩ | ⟨-, h⟩ := runWhenFed_next h
  · exact ⟨rfl, rfl, rfl⟩
  · obtain ⟨r, -, hkeep⟩ := execute_keeps h
    exact ⟨hkeep.outbox, hkeep.inbox, hkeep.params⟩

theorem handle_keepsHostSide {e : HostEvent} {s t : State} (h : handle e s = .next t) : KeepsHostSide s t := by
  cases e with
  | command r =>
    obtain ⟨-, -, u, hu, rfl⟩ := transact_next h
    obtain ⟨a, ha, hkeep⟩ := execute_keeps hu
    exact ⟨.inr ⟨a, by rw [State.deliver_outbox, ha, hkeep.outbox]; rfl⟩, hkeep.inbox, hkeep.params⟩
  | requestTransfer cmd imm len =>
    obtain ⟨-, hu⟩ := requestTransfer_next h
    obtain ⟨hout, hin, hparams⟩ := runWhenFed_hostSide hu
    exact ⟨.inl hout, hin, hparams⟩
  | payloadTransfer b =>
    obtain ⟨p, v, -, -, hv, rfl⟩ := payloadTransfer_next h
    obtain ⟨hout, hin, hparams⟩ := runWhenFed_hostSide hv
    exact settle_keepsHostSide p hout hin hparams
  | responseTransfer =>
    obtain ⟨p, -, -, rfl⟩ := responseTransfer_next h
    exact settle_keepsHostSide _ rfl rfl rfl
  | byteTransfer =>
    obtain ⟨p, -, -, -, -, rfl⟩ := byteTransfer_next h
    exact settle_keepsHostSide _ rfl rfl rfl
  | reset => cases h; exact ⟨.inl rfl, rfl, rfl⟩
  | secondRequester r => cases h

/-- Settles O11: action by action in `handle_keepsHostSide`. -/
theorem stepDeliversAtMostOneResponse : Obligations.StepDeliversAtMostOneResponse := by
  unfold Obligations.StepDeliversAtMostOneResponse
  intro s t h
  obtain ⟨hq, rfl⟩ | ⟨e, rest, hq, he⟩ := step_next h
  · exact ⟨.inl rfl, by rw [hq]; rfl, rfl⟩
  · obtain ⟨hout, hin, hparams⟩ := handle_keepsHostSide he
    exact ⟨hout, by rw [hin, hq]; rfl, hparams⟩

/-! ### The key -/

/-- KEY, NONCE and KV are the same. -/
def SameKey (s t : State) : Prop := t.key = s.key ∧ t.nonce = s.nonce ∧ t.kv = s.kv

theorem setCounter_sameKey {v : Word} {s t : State} (h : setCounter v s = .next t) : SameKey s t := by
  obtain ⟨-, hu⟩ | ⟨-, -, hu⟩ | ⟨-, -, hu⟩ := setCounter_cases v s <;> cases h.symm.trans hu <;> exact ⟨rfl, rfl, rfl⟩

theorem exec_keystream_sameKey {i : Instr} (hi : isKeystream i = true) {s t : State} (h : exec i s = .next t) :
    SameKey s t := by
  have hframe := keystreamCommandsFrame i s t hi h
  exact ⟨by rw [hframe], by rw [hframe], by rw [hframe]⟩

/-- Only a CONSTRUCT of 44 bytes changes the key. -/
theorem exec_sameKey {i : Instr} {s t : State} (h : exec i s = .next t) :
    SameKey s t ∨ ∃ k n, i = .construct k n ∧ s.data.length = 44 := by
  cases hi : isKeystream i with
  | true => exact .inl (exec_keystream_sameKey hi h)
  | false =>
    cases i with
    | construct k n =>
      obtain ⟨st, -, hu⟩ | ⟨hlen, hk, hn⟩ := exec_construct_cases k n s
      · cases h.symm.trans hu
        exact .inl ⟨rfl, rfl, rfl⟩
      · exact .inr ⟨k, n, rfl, by omega⟩
    | setctr v | seek v => exact .inl (setCounter_sameKey h)
    | _ =>
      obtain ⟨hid, st, b, hu, -⟩ := exec_answersInPlace hi nofun (fun _ => ⟨nofun, nofun⟩) s
      cases h.symm.trans hu
      exact .inl ⟨rfl, rfl, rfl⟩

theorem execute_sameKey {cmd imm : Word} {s t : State} (h : execute cmd imm s = .next t) :
    SameKey s t ∨ ∃ k n, decode cmd imm = .ok (.construct k n) ∧ s.data.length = 44 := by
  cases hd : decode cmd imm with
  | error e =>
    cases h.symm.trans (isIllegal_of_decode_error hd s)
    exact .inl ⟨rfl, rfl, rfl⟩
  | ok i =>
    rw [execute_of_decode hd] at h
    obtain hsame | ⟨k, n, rfl, hlen⟩ := exec_sameKey h
    · exact .inl hsame
    · exact .inr ⟨k, n, rfl, hlen⟩

theorem settle_sameKey (p : Transfer) (s : State) : SameKey s (s.settle p) := by
  obtain ⟨-, h⟩ | ⟨-, h⟩ := settle_cases p s <;> rw [h] <;> exact ⟨rfl, rfl, rfl⟩

theorem runWhenFed_sameKey {p : Transfer} {s t : State} (h : State.runWhenFed p s = .next t) :
    SameKey s t ∨ s.data.length = p.len.toNat ∧
      ∃ k n, decode p.cmd p.imm = .ok (.construct k n) ∧ s.data.length = 44 := by
  obtain ⟨-, rfl⟩ | ⟨hfed, h⟩ := runWhenFed_next h
  · exact .inl ⟨rfl, rfl, rfl⟩
  · exact (execute_sameKey h).imp_right fun hcon => ⟨hfed, hcon⟩

/-- An action of the host at which the key may change: reset, and what executes a CONSTRUCT. -/
inductive MayChangeKey (s : State) : HostEvent → Prop where
  | reset : MayChangeKey s .reset
  | command {r : Request} {k n : BitVec 8} (hd : decode r.cmd r.imm = .ok (.construct k n)) :
      MayChangeKey s (.command r)
  | lastByte {b : Byte} {p : Transfer} {k n : BitVec 8} (hp : s.port = .busy p)
      (hd : decode p.cmd p.imm = .ok (.construct k n)) (hlast : s.data.length + 1 = p.len.toNat) :
      MayChangeKey s (.payloadTransfer b)

theorem handle_sameKey {e : HostEvent} {s t : State} (h : handle e s = .next t) : SameKey s t ∨ MayChangeKey s e := by
  cases e with
  | command r =>
    obtain ⟨-, -, u, hu, rfl⟩ := transact_next h
    obtain hsame | ⟨k, n, hd, -⟩ := execute_sameKey hu
    · exact .inl hsame
    · exact .inr (.command hd)
  | requestTransfer cmd imm len =>
    obtain ⟨-, hu⟩ := requestTransfer_next h
    obtain hsame | ⟨-, k, n, -, hlen⟩ := runWhenFed_sameKey hu
    · exact .inl hsame
    · cases hlen
  | payloadTransfer b =>
    obtain ⟨p, v, hp, -, hv, rfl⟩ := payloadTransfer_next h
    obtain ⟨hkey, hnonce, hkv⟩ := settle_sameKey p v
    obtain ⟨hkey', hnonce', hkv'⟩ | ⟨hfed, k, n, hd, -⟩ := runWhenFed_sameKey hv
    · exact .inl ⟨hkey.trans hkey', hnonce.trans hnonce', hkv.trans hkv'⟩
    · exact .inr (.lastByte hp hd (by rw [← hfed, List.length_append]; rfl))
  | responseTransfer =>
    obtain ⟨p, -, -, rfl⟩ := responseTransfer_next h
    exact .inl (settle_sameKey _ _)
  | byteTransfer =>
    obtain ⟨p, -, -, -, -, rfl⟩ := byteTransfer_next h
    exact .inl (settle_sameKey _ _)
  | reset => exact .inr .reset
  | secondRequester r => cases h

/-- Settles O31: action by action in `handle_sameKey`. -/
theorem onlyConstructAndResetChangeTheKey : Obligations.OnlyConstructAndResetChangeTheKey := by
  unfold Obligations.OnlyConstructAndResetChangeTheKey
  intro s t h hchange
  obtain ⟨-, rfl⟩ | ⟨e, rest, hq, he⟩ := step_next h
  · simp at hchange
  refine ⟨e, rest, hq, ?_⟩
  obtain ⟨hkey, hnonce, hkv⟩ | hmay := handle_sameKey he
  · exact absurd hchange (by simp [hkey, hnonce, hkv])
  cases hmay with
  | reset => exact .inl rfl
  | command hd => exact .inr ⟨_, _, _, _, hd, .inl ⟨_, rfl⟩⟩
  | lastByte hp hd hlast => exact .inr ⟨_, _, _, _, hd, .inr ⟨_, _, rfl, hp, rfl, rfl, hlast⟩⟩

end Sys2Proof.Machine
end

section
/-! PROOFS. The invariant of the counter flag and of the port (10_state.md R36, R46, 70_reset_and_hazards.md R255). Every
transfer inside a transaction ends with `State.settle`, so the clauses about a transaction are collected in `Carrying`, which
each transfer re-establishes, and `settle` turns into `Inv`; the bound on the bytes sent survives the execution because rsp_len
is known before it (`execute_response`). -/

namespace Sys2Proof.Machine

/-! ### The counter flag -/

/-- EXH = 1 only with CTR = 0 and a constructed state. -/
def CounterOk (s : State) : Prop := s.exh = true → s.ctr = 0#32 ∧ s.kv = true

theorem counterOk_of_not_exh {s : State} (h : s.exh = false) : CounterOk s :=
  fun he => absurd (h.symm.trans he) Bool.false_ne_true

theorem CounterOk.congr {s t : State} (hs : CounterOk s) (he : t.exh = s.exh) (hc : t.ctr = s.ctr) (hk : t.kv = s.kv) :
    CounterOk t := by
  unfold CounterOk
  rwa [he, hc, hk]

theorem counterOk_advance {s : State} {n : Nat} (hk : s.kv = true) (hfits : s.nbi + n ≤ 2 ^ 32) :
    CounterOk (s.advance n) := by
  intro he
  rw [advance_eq s hfits] at he
  refine ⟨?_, hk⟩
  rw [State.advance_ctr, of_decide_eq_true he]
  rfl

theorem setCounter_counterOk {v : Word} {s t : State} (h : setCounter v s = .next t) (hs : CounterOk s) :
    CounterOk t := by
  obtain ⟨-, hu⟩ | ⟨-, -, hu⟩ | ⟨-, -, hu⟩ := setCounter_cases v s <;> cases h.symm.trans hu
  · exact hs
  · exact hs
  · exact counterOk_of_not_exh rfl

theorem exec_counterOk {i : Instr} {s t : State} (h : exec i s = .next t) (hs : CounterOk s) : CounterOk t := by
  cases hi : isKeystream i with
  | true =>
    cases exec_streamsBlocks hi s with
    | otherCheck st _ _ _ hu => cases h.symm.trans hu; exact hs
    | overflow _ _ _ hu => cases h.symm.trans hu; exact hs
    | noBlock _ _ hu => cases h.symm.trans hu; exact hs
    | consumed hk hfits hid b hu => cases h.symm.trans hu; exact (counterOk_advance hk hfits).congr rfl rfl rfl
  | false =>
    cases i with
    | construct k n =>
      obtain ⟨st, -, hu⟩ | ⟨hlen, hk, hn⟩ := exec_construct_cases k n s
      · cases h.symm.trans hu
        exact hs
      · cases h.symm.trans (exec_construct_of_sizes hlen hk hn)
        exact counterOk_of_not_exh rfl
    | setctr v | seek v => exact setCounter_counterOk h hs
    | _ =>
      obtain ⟨hid, st, b, hu, -⟩ := exec_answersInPlace hi nofun (fun _ => ⟨nofun, nofun⟩) s
      cases h.symm.trans hu
      exact hs

theorem execute_counterOk {cmd imm : Word} {s t : State} (h : execute cmd imm s = .next t) (hs : CounterOk s) :
    CounterOk t := by
  cases hd : decode cmd imm with
  | error e => cases h.symm.trans (isIllegal_of_decode_error hd s); exact hs
  | ok i => rw [execute_of_decode hd] at h; exact exec_counterOk h hs

theorem Inv.counterOk {s : State} (hs : Inv s) : CounterOk s :=
  fun he => ⟨hs.exhausted_counter he, hs.exhausted_constructed he⟩

/-! ### Between commands -/

theorem inv_of_idle {s : State} (hc : CounterOk s) (hp : s.port = .idle) (hd : s.data = []) (hr : s.rsp = none) :
    Inv s where
  exhausted_counter he := (hc he).1
  exhausted_constructed he := (hc he).2
  idle_clean _ := ⟨hd, hr⟩
  payload_bound p hb := by cases hp.symm.trans hb
  executed_iff_fed p hb := by cases hp.symm.trans hb
  sent_bound p hb := by cases hp.symm.trans hb
  bytes_after_response p hb := by cases hp.symm.trans hb
  error_without_bytes r h := by cases hr.symm.trans h
  unfinished p r hb := by cases hp.symm.trans hb

/-- Settles O2: the port is idle and EXH = 0. -/
theorem resetHasInvariant : Obligations.ResetHasInvariant :=
  inv_of_idle (counterOk_of_not_exh rfl) rfl rfl rfl

theorem inv_deliver {s : State} (hc : CounterOk s) : Inv s.deliver := inv_of_idle hc rfl rfl rfl

/-! ### Within a transaction -/

/-- The invariant's clauses about a transaction, but for the last: it may be finished and not yet delivered. -/
structure Carrying (p : Transfer) (s : State) : Prop where
  counter : CounterOk s
  port : s.port = .busy p
  payload_bound : s.data.length ≤ p.len.toNat
  executed_iff_fed : s.rsp ≠ none ↔ s.data.length = p.len.toNat
  sent_bound : p.sent ≤ s.rspLen p
  bytes_after_response : p.statusSent = false → p.sent = 0
  error_without_bytes : ∀ r, s.rsp = some r → r.status ≠ .ok → r.rdata = []

theorem Inv.carrying {s : State} {p : Transfer} (hs : Inv s) (hp : s.port = .busy p) : Carrying p s where
  counter := hs.counterOk
  port := hp
  payload_bound := hs.payload_bound p hp
  executed_iff_fed := hs.executed_iff_fed p hp
  sent_bound := hs.sent_bound p hp
  bytes_after_response := hs.bytes_after_response p hp
  error_without_bytes := hs.error_without_bytes

theorem Carrying.inv_of_unfinished {s : State} {p : Transfer} (hs : Carrying p s)
    (hopen : ∀ r, s.rsp = some r → ¬(p.statusSent = true ∧ p.sent = r.rdata.length)) : Inv s := by
  have hport {q : Transfer} (hq : s.port = .busy q) : q = p := by cases hs.port.symm.trans hq; rfl
  exact {
    exhausted_counter := fun he => (hs.counter he).1
    exhausted_constructed := fun he => (hs.counter he).2
    idle_clean := fun hi => by cases hs.port.symm.trans hi
    payload_bound := fun q hq => hport hq ▸ hs.payload_bound
    executed_iff_fed := fun q hq => hport hq ▸ hs.executed_iff_fed
    sent_bound := fun q hq => hport hq ▸ hs.sent_bound
    bytes_after_response := fun q hq => hport hq ▸ hs.bytes_after_response
    error_without_bytes := hs.error_without_bytes
    unfinished := fun q r hq => hport hq ▸ hopen r }

/-- A finished transaction is delivered, an unfinished one goes on. -/
theorem Carrying.inv_settle {s : State} {p : Transfer} (hs : Carrying p s) : Inv (s.settle p) := by
  obtain ⟨-, h⟩ | ⟨hopen, h⟩ := settle_cases p s
  · rw [h]
    exact inv_deliver hs.counter
  · rw [h]
    exact hs.inv_of_unfinished hopen

/-- DATA of a transaction whose command has not been executed grew: if the payload is now complete, the command is
executed. -/
theorem carrying_of_runWhenFed {p : Transfer} {s t : State} (h : State.runWhenFed p s = .next t) (hc : CounterOk s)
    (hp : s.port = .busy p) (hnone : s.rsp = none) (hbound : s.data.length ≤ p.len.toNat)
    (hsent : p.sent ≤ s.rspLen p) (hafter : p.statusSent = false → p.sent = 0) : Carrying p t := by
  obtain ⟨hopen, rfl⟩ | ⟨hfed, hexec⟩ := runWhenFed_next h
  · exact {
      counter := hc
      port := hp
      payload_bound := hbound
      executed_iff_fed := iff_of_false (fun hne => hne hnone) hopen
      sent_bound := hsent
      bytes_after_response := hafter
      error_without_bytes := fun r hr => by cases hnone.symm.trans hr }
  · obtain ⟨a, ha, hkeep⟩ := execute_keeps hexec
    obtain ⟨u, r, hu, hr, -, hlen⟩ := execute_response p.cmd p.imm s
    cases hexec.symm.trans hu
    have hfed' : t.data.length = p.len.toNat := by rw [hkeep.data, hfed]
    exact {
      counter := execute_counterOk hexec hc
      port := hkeep.port.trans hp
      payload_bound := hfed'.le
      executed_iff_fed := iff_of_true (by rw [ha]; exact Option.some_ne_none a) hfed'
      sent_bound := by rwa [rspLen_of_some hr, hlen, hfed, ← rspLen_of_none hnone]
      bytes_after_response := hafter
      error_without_bytes := fun q hq hne =>
        ((execute_answers p.cmd p.imm s).eq_of_status_ne_ok hexec hq hne).1 }

/-- The response transfer, and a byte transfer that rsp_len allows, leave all but the transfer's progress. -/
theorem Carrying.progress {s : State} {p : Transfer} (hs : Carrying p s) {b : Bool} {n : Nat} (hn : n ≤ s.rspLen p)
    (hafter : b = false → n = 0) :
    Carrying { p with statusSent := b, sent := n } { s with port := .busy { p with statusSent := b, sent := n } } where
  counter := hs.counter
  port := rfl
  payload_bound := hs.payload_bound
  executed_iff_fed := hs.executed_iff_fed
  sent_bound := hn.trans_eq (rspLen_congr rfl rfl rfl rfl rfl rfl)
  bytes_after_response := hafter
  error_without_bytes := hs.error_without_bytes

/-! ### Each action keeps the invariant -/

theorem requestTransfer_inv {cmd imm : Word} {len : BitVec 40} {s t : State} (hs : Inv s)
    (h : requestTransfer cmd imm len s = .next t) : Inv t := by
  obtain ⟨-, hrun⟩ := requestTransfer_next h
  have hcarry := carrying_of_runWhenFed hrun hs.counterOk rfl rfl (Nat.zero_le _) (Nat.zero_le _) fun _ => rfl
  have hinv := hcarry.inv_settle
  rwa [settle_unsent _ _ rfl] at hinv

theorem payloadTransfer_inv {b : Byte} {s t : State} (hs : Inv s) (h : payloadTransfer b s = .next t) : Inv t := by
  obtain ⟨p, v, hp, hopen, hrun, rfl⟩ := payloadTransfer_next h
  have hcarry := hs.carrying hp
  have hnone : s.rsp = none := by
    by_contra hne
    exact absurd (hcarry.executed_iff_fed.1 hne) hopen.ne
  have hbound : (s.data ++ [b]).length ≤ p.len.toNat := by
    rw [List.length_append]
    exact hopen
  have hsent : p.sent ≤ State.rspLen { s with data := s.data ++ [b] } p :=
    hcarry.sent_bound.trans_eq (rspLen_congr rfl rfl rfl rfl rfl rfl)
  exact (carrying_of_runWhenFed hrun hcarry.counter hp hnone hbound hsent hcarry.bytes_after_response).inv_settle

theorem responseTransfer_inv {s t : State} (hs : Inv s) (h : responseTransfer s = .next t) : Inv t := by
  obtain ⟨p, hp, -, rfl⟩ := responseTransfer_next h
  have hcarry := hs.carrying hp
  exact (hcarry.progress (b := true) hcarry.sent_bound nofun).inv_settle

theorem byteTransfer_inv {s t : State} (hs : Inv s) (h : byteTransfer s = .next t) : Inv t := by
  obtain ⟨p, hp, hst, hlt, -, rfl⟩ := byteTransfer_next h
  exact ((hs.carrying hp).progress hlt fun hb => absurd (hb.symm.trans hst) Bool.false_ne_true).inv_settle

theorem handle_inv {e : HostEvent} {s t : State} (hs : Inv s) (h : handle e s = .next t) : Inv t := by
  cases e with
  | command r =>
    obtain ⟨-, -, u, hu, rfl⟩ := transact_next h
    exact inv_deliver (execute_counterOk hu hs.counterOk)
  | requestTransfer cmd imm len => exact requestTransfer_inv hs h
  | payloadTransfer b => exact payloadTransfer_inv hs h
  | responseTransfer => exact responseTransfer_inv hs h
  | byteTransfer => exact byteTransfer_inv hs h
  | reset => cases h; exact inv_of_idle (counterOk_of_not_exh rfl) rfl rfl rfl
  | secondRequester r => cases h

theorem Inv.withInbox {s : State} (hs : Inv s) (q : List HostEvent) : Inv { s with inbox := q } where
  exhausted_counter := hs.exhausted_counter
  exhausted_constructed := hs.exhausted_constructed
  idle_clean := hs.idle_clean
  payload_bound := hs.payload_bound
  executed_iff_fed := hs.executed_iff_fed
  sent_bound p hp := (hs.sent_bound p hp).trans_eq (rspLen_inbox s q p).symm
  bytes_after_response := hs.bytes_after_response
  error_without_bytes := hs.error_without_bytes
  unfinished := hs.unfinished

/-- Settles O36: action by action in `handle_inv`. -/
theorem everyStepKeepsTheInvariant : Obligations.EveryStepKeepsTheInvariant := by
  unfold Obligations.EveryStepKeepsTheInvariant
  intro s t hs h
  obtain ⟨-, rfl⟩ | ⟨e, rest, -, he⟩ := step_next h
  · exact hs
  · exact handle_inv (hs.withInbox rest) he

/-! ### The signals of a transaction -/

/-- An action whose signal is high has a next state. -/
theorem handle_of_allows {e : HostEvent} {s : State} (h : s.allows e = true) : ∃ t, handle e s = .next t := by
  cases e with
  | command r =>
    obtain ⟨hready, hlen⟩ := Bool.and_eq_true_iff.1 h
    obtain ⟨u, hu⟩ := execute_next r.cmd r.imm (s.load r.data)
    exact ⟨_, transact_of_execute (reqReady_iff.1 hready) (of_decide_eq_true hlen) hu⟩
  | requestTransfer cmd imm len =>
    have hp : s.port = .idle := reqReady_iff.1 h
    simp only [handle, requestTransfer, hp]
    exact runWhenFed_total _ _
  | payloadTransfer b =>
    cases hp : s.port with
    | idle => simp [State.allows, State.dinReady, hp] at h
    | busy p =>
      obtain ⟨u, hu⟩ := runWhenFed_total p { s with data := s.data ++ [b] }
      exact ⟨_, payloadTransfer_of hp ((dinReady_of_busy hp).1 h) hu⟩
  | responseTransfer =>
    cases hp : s.port with
    | idle => simp [State.allows, State.rspValid, hp] at h
    | busy p => exact ⟨_, responseTransfer_of hp ((rspValid_of_busy hp).1 h)⟩
  | byteTransfer =>
    cases hp : s.port with
    | idle => simp [State.allows, State.doutValid, hp] at h
    | busy p =>
      obtain ⟨hst, hlt, hknown⟩ := (doutValid_of_busy hp).1 h
      exact ⟨_, byteTransfer_of hp hst hlt hknown⟩
  | reset => exact ⟨_, rfl⟩
  | secondRequester r => cases h

/-- Once the command has been executed every untransferred byte is offered. -/
theorem doutValid_of_executed {s : State} {p : Transfer} (hs : Inv s) (hp : s.port = .busy p) (hr : s.rsp ≠ none)
    (hst : p.statusSent = true) : s.doutValid = true := by
  obtain ⟨r, hr⟩ := Option.ne_none_iff_exists'.1 hr
  have hle := hs.sent_bound p hp
  rw [rspLen_of_some hr] at hle
  have hlt : p.sent < r.rdata.length := lt_of_le_of_ne hle fun heq => hs.unfinished p r hp hr ⟨hst, heq⟩
  rw [doutValid_of_busy hp, rspLen_of_some hr, rdataSoFar_of_some hr]
  exact ⟨hst, hlt, hlt⟩

theorem rdataLen_of_transformTier {i : Instr} {tier : Tier} (h : transformTier i = some tier) (n : Nat) :
    rdataLen i n = n := by
  cases i <;> simp_all [rdataLen, transformTier]

/-- Of a TRANSFORM that has not been executed, the byte of each payload byte that has come is offered. -/
theorem doutValid_of_transform {s : State} {p : Transfer} {i : Instr} {tier : Tier} (hs : Inv s)
    (hp : s.port = .busy p) (hnone : s.rsp = none) (hi : decode p.cmd p.imm = .ok i)
    (htier : transformTier i = some tier) (hok : s.rspStatus p = .ok) (hst : p.statusSent = true)
    (hlt : p.sent < s.data.length) : s.doutValid = true := by
  rw [rspStatus_of_none hnone, requestStatus_of_decode hi] at hok
  have hknown : s.rdataSoFar p = transformBytes tier s s.data := by simp [State.rdataSoFar, hnone, hi, htier, hok]
  have hlen : s.rspLen p = p.len.toNat := by
    rw [rspLen_of_none hnone, requestRspLen_of_decode hi, if_pos hok, rdataLen_of_transformTier htier]
  rw [doutValid_of_busy hp, hlen, hknown, length_transformBytes]
  exact ⟨hst, hlt.trans_le (hs.payload_bound p hp), hlt⟩

theorem some_transfer_allowed {s : State} {p : Transfer} (hs : Inv s) (hp : s.port = .busy p) :
    s.dinReady = true ∨ s.rspValid = true ∨ s.doutValid = true := by
  by_cases hdin : s.data.length < p.len.toNat
  · exact .inl ((dinReady_of_busy hp).2 hdin)
  cases hst : p.statusSent with
  | false => exact .inr (.inl ((rspValid_of_busy hp).2 hst))
  | true =>
    have hfed : s.data.length = p.len.toNat := le_antisymm (hs.payload_bound p hp) (Nat.not_lt.1 hdin)
    exact .inr (.inr (doutValid_of_executed hs hp ((hs.executed_iff_fed p hp).2 hfed) hst))

/-- Settles O9: `handle_of_allows`, and the lemmas above on each signal. -/
theorem allowedTransfersHappen : Obligations.AllowedTransfersHappen := by
  unfold Obligations.AllowedTransfersHappen
  refine ⟨fun s e rest hq hallow => ?_, fun s p hs hp => ⟨?_, dinReady_of_busy hp, rspValid_of_busy hp, fun hv => ?_,
    doutValid_of_executed hs hp, fun i tier hi htier hok hst hlt => ?_, some_transfer_allowed hs hp⟩⟩
  · rw [step_cons hq]
    exact handle_of_allows ((allows_inbox s rest e).trans hallow)
  · simp only [State.reqReady, hp]
  · obtain ⟨hst, hlt, -⟩ := (doutValid_of_busy hp).1 hv
    exact ⟨hst, hlt⟩
  · by_cases hnone : s.rsp = none
    · exact doutValid_of_transform hs hp hnone hi htier hok hst hlt
    · exact doutValid_of_executed hs hp hnone hst

end Sys2Proof.Machine
end

section
/-! PROOFS. Noninterference of KEY, NONCE and CTR while KV = 0 (10_state.md R37, R46). A command that reads one of the three
finds KV = 0 first and raises NotConstructed, and CONSTRUCT overwrites all three; at the port a byte offered before the
execution would be of a TRANSFORM whose checks pass, which needs KV = 1. -/

namespace Sys2Proof.Machine

/-! ### States that differ at most in KEY, NONCE and CTR -/

/-- A state with other values of KEY, NONCE and CTR. -/
def State.withValues (s : State) (key : Vector Word 8) (nonce : Vector Word 3) (ctr : Word) : State :=
  { s with key := key, nonce := nonce, ctr := ctr }

section
variable (s : State) (key : Vector Word 8) (nonce : Vector Word 3) (ctr : Word)

@[simp] theorem State.withValues_data : (s.withValues key nonce ctr).data = s.data := rfl
@[simp] theorem State.withValues_rsp : (s.withValues key nonce ctr).rsp = s.rsp := rfl
@[simp] theorem State.withValues_port : (s.withValues key nonce ctr).port = s.port := rfl
@[simp] theorem State.withValues_inbox : (s.withValues key nonce ctr).inbox = s.inbox := rfl

end

theorem SameButValues.exists_withValues {s t : State} (h : SameButValues s t) :
    s.kv = false ∧ ∃ key nonce ctr, t = s.withValues key nonce ctr :=
  ⟨h.1, _, _, _, h.2.symm⟩

/-- The same state, or again states with KV = 0 that differ at most in the three. -/
def SameOrUnread (s t : State) : Prop := t = s ∨ SameButValues s t

theorem SameOrUnread.deliver {s t : State} (h : SameOrUnread s t) : SameOrUnread s.deliver t.deliver := by
  obtain rfl | h := h
  · exact .inl rfl
  · obtain ⟨hk, key, nonce, ctr, rfl⟩ := h.exists_withValues
    exact .inr ⟨hk, rfl⟩

theorem SameButValues.settle {s t : State} (p : Transfer) (h : SameButValues s t) :
    SameOrUnread (s.settle p) (t.settle p) := by
  obtain ⟨hk, key, nonce, ctr, rfl⟩ := h.exists_withValues
  simp only [State.settle, State.withValues_rsp]
  cases s.rsp with
  | none => exact .inr h
  | some r =>
    dsimp only
    split
    · exact SameOrUnread.deliver (.inr h)
    · exact .inr h

theorem SameOrUnread.settle {s t : State} (p : Transfer) (h : SameOrUnread s t) :
    SameOrUnread (s.settle p) (t.settle p) := by
  obtain rfl | h := h
  · exact .inl rfl
  · exact h.settle p

/-! ### A command answers alike in both -/

/-- Both have a next state, and these are the same or differ at most in values not read. -/
def UnreadNext (o o' : Host.Outcome State Fault Refusal) : Prop :=
  ∃ u v : State, o = .next u ∧ o' = .next v ∧ SameOrUnread u v

theorem UnreadNext.raise (st : Status) {s t : State} (h : SameButValues s t) :
    UnreadNext (Machine.raise st s) (Machine.raise st t) := by
  obtain ⟨hk, key, nonce, ctr, rfl⟩ := h.exists_withValues
  exact ⟨_, _, rfl, rfl, .inr ⟨hk, rfl⟩⟩

theorem UnreadNext.complete (b : List Byte) {s t : State} (h : SameButValues s t) :
    UnreadNext (Machine.complete b s) (Machine.complete b t) := by
  obtain ⟨hk, key, nonce, ctr, rfl⟩ := h.exists_withValues
  exact ⟨_, _, rfl, rfl, .inr ⟨hk, rfl⟩⟩

/-- All three are overwritten. -/
theorem UnreadNext.complete_same (b : List Byte) {s t : State} (h : t = s) :
    UnreadNext (Machine.complete b s) (Machine.complete b t) := by
  subst h
  exact ⟨_, _, rfl, rfl, .inl rfl⟩

section
variable {c : Prop} [Decidable c] {a b a' b' : Host.Outcome State Fault Refusal}

theorem UnreadNext.ite (ha : UnreadNext a a') (hb : UnreadNext b b') :
    UnreadNext (if c then a else b) (if c then a' else b') := by
  split
  · exact ha
  · exact hb

/-- What comes after a check that fails is not reached. -/
theorem UnreadNext.ite_pos (hc : c) (ha : UnreadNext a a') :
    UnreadNext (if c then a else b) (if c then a' else b') := by
  rwa [if_pos hc, if_pos hc]

end

theorem setCounter_unreadNext (v : Word) {s t : State} (h : SameButValues s t) :
    UnreadNext (setCounter v s) (setCounter v t) := by
  obtain ⟨hk, key, nonce, ctr, rfl⟩ := h.exists_withValues
  exact .ite (.raise _ h) (.ite_pos hk (.raise _ h))

theorem transform_unreadNext (tier : Tier) {s t : State} (h : SameButValues s t) :
    UnreadNext (transform tier s) (transform tier t) := by
  obtain ⟨hk, key, nonce, ctr, rfl⟩ := h.exists_withValues
  exact .ite_pos hk (.raise _ h)

/-- The checks of each command in order, as far as the KV check where it makes one. -/
theorem exec_unreadNext (i : Instr) {s t : State} (h : SameButValues s t) : UnreadNext (exec i s) (exec i t) := by
  obtain ⟨hk, key, nonce, ctr, rfl⟩ := h.exists_withValues
  cases i with
  | construct klen nlen =>
    exact .ite (.raise _ h) (.ite (.raise _ h) (.ite (.raise _ h) (.complete_same _ rfl)))
  | setctr v => exact setCounter_unreadNext v h
  | seek v => exact setCounter_unreadNext v h
  | getctr => exact .ite (.raise _ h) (.ite_pos hk (.raise _ h))
  | rotl x n => exact .ite (.raise _ h) (.ite (.raise _ h) (.complete _ h))
  | qround => exact .ite (.raise _ h) (.complete _ h)
  | blockfn raw => exact .ite (.raise _ h) (.complete _ ⟨hk, rfl⟩)
  | ksblock => exact .ite (.raise _ h) (.ite_pos hk (.raise _ h))
  | ksbatch => exact .ite (.raise _ h) (.ite_pos hk (.raise _ h))
  | transformRef | transformRo | transformVec | encrypt tier | decrypt tier => exact transform_unreadNext _ h

theorem execute_unreadNext (cmd imm : Word) {s t : State} (h : SameButValues s t) :
    UnreadNext (execute cmd imm s) (execute cmd imm t) := by
  unfold execute
  split
  · exact exec_unreadNext _ h
  · exact .raise _ h

theorem runWhenFed_unreadNext (p : Transfer) {s t : State} (h : SameButValues s t) :
    UnreadNext (State.runWhenFed p s) (State.runWhenFed p t) := by
  obtain ⟨hk, key, nonce, ctr, rfl⟩ := h.exists_withValues
  exact .ite (execute_unreadNext _ _ h) ⟨_, _, rfl, rfl, .inr h⟩

/-! ### The port offers the same in both -/

/-- With KV = 0 no byte is known before the execution. -/
theorem rdataSoFar_of_not_kv {s : State} (hk : s.kv = false) (hnone : s.rsp = none) (p : Transfer) :
    s.rdataSoFar p = [] := by
  by_contra hne
  obtain ⟨i, tier, -, htier, hok, -⟩ := rdataSoFar_of_none hnone (List.length_pos_of_ne_nil hne)
  rw [firstFailing_transform htier, if_pos hk] at hok
  cases hok

theorem doutValid_of_sameButValues {s t : State} (h : SameButValues s t) : t.doutValid = s.doutValid := by
  obtain ⟨hk, key, nonce, ctr, rfl⟩ := h.exists_withValues
  simp only [State.doutValid, State.withValues_port]
  cases s.port with
  | idle => rfl
  | busy p =>
    cases hr : s.rsp with
    | none =>
      simp only [rdataSoFar_of_not_kv hk hr p,
        rdataSoFar_of_not_kv (s := s.withValues key nonce ctr) hk hr p, List.length_nil, Nat.not_lt_zero, decide_false,
        Bool.and_false]
    | some r =>
      have hr' : (s.withValues key nonce ctr).rsp = some r := hr
      simp only [rspLen_of_some hr, rspLen_of_some hr', rdataSoFar_of_some hr, rdataSoFar_of_some hr']

/-! ### A step ends alike in both -/

/-- Next states that are the same or differ at most in values not read, or the same refusal. -/
def UnreadOutcome (o o' : Host.Outcome State Fault Refusal) : Prop :=
  UnreadNext o o' ∨ ∃ r : Refusal, o = .refused r ∧ o' = .refused r

theorem UnreadOutcome.next {s t : State} (h : SameOrUnread s t) : UnreadOutcome (.next s) (.next t) :=
  .inl ⟨s, t, rfl, rfl, h⟩

theorem UnreadOutcome.refused (r : Refusal) : UnreadOutcome (.refused r) (.refused r) := .inr ⟨r, rfl, rfl⟩

theorem UnreadOutcome.ite {c : Prop} [Decidable c] {a b a' b' : Host.Outcome State Fault Refusal}
    (ha : UnreadOutcome a a') (hb : UnreadOutcome b b') : UnreadOutcome (if c then a else b) (if c then a' else b') := by
  split
  · exact ha
  · exact hb

section
variable {s t : State}

theorem transact_unreadOutcome (r : Request) (h : SameButValues s t) :
    UnreadOutcome (transact r s) (transact r t) := by
  obtain ⟨hk, key, nonce, ctr, rfl⟩ := h.exists_withValues
  have hload : SameButValues (s.load r.data) ((s.withValues key nonce ctr).load r.data) := ⟨hk, rfl⟩
  obtain ⟨u, v, hu, hv, huv⟩ := execute_unreadNext r.cmd r.imm hload
  cases hp : s.port with
  | busy p => simp only [transact, State.withValues_port, hp]; exact .refused _
  | idle =>
    simp only [transact, State.withValues_port, hp, hu, hv]
    exact .ite (.next huv.deliver) (.refused _)

theorem requestTransfer_unreadOutcome (cmd imm : Word) (len : BitVec 40) (h : SameButValues s t) :
    UnreadOutcome (requestTransfer cmd imm len s) (requestTransfer cmd imm len t) := by
  obtain ⟨hk, key, nonce, ctr, rfl⟩ := h.exists_withValues
  cases hp : s.port with
  | busy p => simp only [requestTransfer, State.withValues_port, hp]; exact .refused _
  | idle =>
    simp only [requestTransfer, State.withValues_port, hp]
    exact .inl (runWhenFed_unreadNext _ ⟨hk, rfl⟩)

theorem payloadTransfer_unreadOutcome (b : Byte) (h : SameButValues s t) :
    UnreadOutcome (payloadTransfer b s) (payloadTransfer b t) := by
  obtain ⟨hk, key, nonce, ctr, rfl⟩ := h.exists_withValues
  cases hp : s.port with
  | idle => simp only [payloadTransfer, State.withValues_port, hp]; exact .refused _
  | busy p =>
    have hfed : SameButValues { s with data := s.data ++ [b] }
      { s.withValues key nonce ctr with data := (s.withValues key nonce ctr).data ++ [b] } := ⟨hk, rfl⟩
    obtain ⟨u, v, hu, hv, huv⟩ := runWhenFed_unreadNext p hfed
    simp only [State.withValues_port, State.withValues_data, hp] at hu hv
    simp only [payloadTransfer, State.withValues_port, State.withValues_data, hp, hu, hv]
    exact .ite (.next (huv.settle p)) (.refused _)

theorem responseTransfer_unreadOutcome (h : SameButValues s t) :
    UnreadOutcome (responseTransfer s) (responseTransfer t) := by
  obtain ⟨hk, key, nonce, ctr, rfl⟩ := h.exists_withValues
  cases hp : s.port with
  | idle => simp only [responseTransfer, State.withValues_port, hp]; exact .refused _
  | busy p =>
    simp only [responseTransfer, State.withValues_port, hp]
    exact .ite (.next (SameButValues.settle _ ⟨hk, rfl⟩)) (.refused _)

theorem byteTransfer_unreadOutcome (h : SameButValues s t) : UnreadOutcome (byteTransfer s) (byteTransfer t) := by
  obtain ⟨hk, key, nonce, ctr, rfl⟩ := h.exists_withValues
  cases hp : s.port with
  | idle => simp only [byteTransfer, State.withValues_port, hp]; exact .refused _
  | busy p =>
    simp only [byteTransfer, State.withValues_port, hp, doutValid_of_sameButValues h]
    exact .ite (.next (SameButValues.settle _ ⟨hk, rfl⟩)) (.refused _)

theorem handle_unreadOutcome (e : HostEvent) (h : SameButValues s t) : UnreadOutcome (handle e s) (handle e t) := by
  cases e with
  | command r => exact transact_unreadOutcome r h
  | requestTransfer cmd imm len => exact requestTransfer_unreadOutcome cmd imm len h
  | payloadTransfer b => exact payloadTransfer_unreadOutcome b h
  | responseTransfer => exact responseTransfer_unreadOutcome h
  | byteTransfer => exact byteTransfer_unreadOutcome h
  | reset =>
    obtain ⟨-, key, nonce, ctr, rfl⟩ := h.exists_withValues
    exact .next (.inl rfl)
  | secondRequester r => exact .refused _

theorem step_unreadOutcome (h : SameButValues s t) : UnreadOutcome (step s) (step t) := by
  obtain ⟨hk, key, nonce, ctr, rfl⟩ := h.exists_withValues
  cases hi : s.inbox with
  | nil => simp only [step, State.withValues_inbox, hi]; exact .next (.inr h)
  | cons e rest =>
    simp only [step, State.withValues_inbox, hi]
    exact handle_unreadOutcome e ⟨hk, rfl⟩

end

/-- Settles O38: a step from either state ends alike (`step_unreadOutcome`). -/
theorem unconstructedWordsAreNeverRead : Obligations.UnconstructedWordsAreNeverRead := by
  unfold Obligations.UnconstructedWordsAreNeverRead
  intro s t h
  obtain ⟨u, v, hu, hv, huv⟩ | ⟨r, hs, ht⟩ := step_unreadOutcome h
  · refine ⟨fun s' hs' => ?_, fun r hr => ?_⟩
    · cases hu.symm.trans hs'
      exact ⟨v, hv, huv⟩
    · cases hu.symm.trans hr
  · refine ⟨fun s' hs' => ?_, fun r' hr' => ?_⟩
    · cases hs.symm.trans hs'
    · cases hs.symm.trans hr'
      exact ht

end Sys2Proof.Machine
end

section
/-! PROOFS. A transaction over the port transfer by transfer (00_scope.md R16, 70_reset_and_hazards.md R255, R256). No command
looks at the port or at the host's side (`execute_around`), so a transaction in progress is, at any moment, either the payload
so far in DATA or what the atomic execution leaves, carried at the port (`Underway`). Each transfer takes such a state to the
next one and hands over exactly the next entry of the response; the last one delivers. -/

namespace Sys2Proof.Machine

/-! ### Steps one by one -/

theorem runSteps_succ {n : Nat} {s t : State} (h : step s = .next t) : runSteps (n + 1) s = runSteps n t := by
  rw [runSteps, h]

theorem runSteps_succ_next {n : Nat} {s t : State} (h : runSteps (n + 1) s = .next t) :
    ∃ u, step s = .next u ∧ runSteps n u = .next t := by
  rw [runSteps] at h
  split at h
  · exact ⟨_, by assumption, h⟩
  · cases h
  · cases h

theorem offersIn_succ {n : Nat} {s t : State} (h : step s = .next t) : offersIn (n + 1) s = s.offer ++ offersIn n t := by
  rw [offersIn, h]

/-! ### The execution behind the port -/

/-- A state carried at the port: the transaction `p` in progress, the actions `q` to come. -/
def State.carrying (s : State) (p : Transfer) (q : List HostEvent) : State := { s with port := .busy p, inbox := q }

theorem execute_carrying {cmd imm : Word} {s u : State} (h : execute cmd imm s = .next u) (p : Transfer)
    (q : List HostEvent) : execute cmd imm (s.carrying p q) = .next (u.carrying p q) := by
  obtain ⟨v, hv, haround⟩ := execute_around cmd imm s (.busy p) q s.outbox s.freeCount
  cases h.symm.trans hv
  obtain ⟨-, -, hkeep⟩ := execute_keeps h
  have hu : u.carrying p q = u.around (.busy p) q s.outbox s.freeCount := by
    rw [← hkeep.outbox, ← hkeep.freeCount]
    rfl
  rw [hu]
  exact haround

/-- Executing the request of `p` with payload `d` from `s₀` gives the state `u` and the response `a`. -/
structure IsAnswer (s₀ : State) (p : Transfer) (d : List Byte) (u : State) (a : Response) : Prop where
  complete : d.length = p.len.toNat
  exec : execute p.cmd p.imm (s₀.load d) = .next u
  rsp : u.rsp = some a

theorem exists_isAnswer (s₀ : State) {p : Transfer} {d : List Byte} (h : d.length = p.len.toNat) :
    ∃ u a, IsAnswer s₀ p d u a := by
  obtain ⟨u, a, hu, ha, -⟩ := execute_response p.cmd p.imm (s₀.load d)
  exact ⟨u, a, h, hu, ha⟩

theorem IsAnswer.unique {s₀ u v : State} {p : Transfer} {d : List Byte} {a b : Response} (hu : IsAnswer s₀ p d u a)
    (hv : IsAnswer s₀ p d v b) : u = v ∧ a = b := by
  cases hu.exec.symm.trans hv.exec
  cases hu.rsp.symm.trans hv.rsp
  exact ⟨rfl, rfl⟩

/-- The same request with other progress. -/
def Transfer.withProgress (p : Transfer) (b : Bool) (n : Nat) : Transfer := { p with statusSent := b, sent := n }

theorem isAnswer_withProgress {s₀ u : State} {p : Transfer} {d : List Byte} {a : Response} {b : Bool} {n : Nat} :
    IsAnswer s₀ (p.withProgress b n) d u a ↔ IsAnswer s₀ p d u a :=
  ⟨fun h => ⟨h.complete, h.exec, h.rsp⟩, fun h => ⟨h.complete, h.exec, h.rsp⟩⟩

/-- A transaction `p` that began at `s₀` is in progress: the payload bytes `d` have come, the actions `q` are to come. -/
inductive Underway (s₀ : State) (p : Transfer) (d : List Byte) (q : List HostEvent) : State → Prop where
  | feeding (hopen : d.length < p.len.toNat) : Underway s₀ p d q ((s₀.load d).carrying p q)
  | executed {u : State} {a : Response} (ha : IsAnswer s₀ p d u a) : Underway s₀ p d q (u.carrying p q)

/-- The transaction is over and its response delivered. -/
inductive Finished (s₀ : State) (p : Transfer) (d : List Byte) (q : List HostEvent) : State → Prop where
  | delivered {u : State} {a : Response} (ha : IsAnswer s₀ p d u a) (hst : p.statusSent = true)
      (hsent : p.sent = a.rdata.length) : Finished s₀ p d q (State.deliver { u with inbox := q })

section
variable {s₀ s t : State} {p : Transfer} {d : List Byte} {q : List HostEvent}

theorem Underway.port (h : Underway s₀ p d q s) : s.port = .busy p := by
  cases h <;> rfl

theorem Underway.inbox (h : Underway s₀ p d q s) : s.inbox = q := by
  cases h <;> rfl

theorem Underway.data (h : Underway s₀ p d q s) : s.data = d := by
  cases h with
  | feeding _ => rfl
  | executed ha =>
    obtain ⟨-, -, hkeep⟩ := execute_keeps ha.exec
    exact hkeep.data

theorem Underway.withInbox (h : Underway s₀ p d q s) (q' : List HostEvent) :
    Underway s₀ p d q' { s with inbox := q' } := by
  cases h with
  | feeding hopen => exact Underway.feeding (q := q') hopen
  | @executed u _ ha => exact Underway.executed (u := u) (q := q') ha

theorem Underway.progress (h : Underway s₀ p d q s) (b : Bool) (n : Nat) :
    Underway s₀ (p.withProgress b n) d q { s with port := .busy (p.withProgress b n) } := by
  cases h with
  | feeding hopen => exact Underway.feeding (p := p.withProgress b n) hopen
  | @executed u _ ha => exact Underway.executed (u := u) (isAnswer_withProgress.2 ha)

theorem underway_of_runWhenFed (hle : d.length ≤ p.len.toNat)
    (h : State.runWhenFed p ((s₀.load d).carrying p q) = .next s) : Underway s₀ p d q s := by
  obtain ⟨hopen, rfl⟩ | ⟨hfed, hexec⟩ := runWhenFed_next h
  · exact .feeding (lt_of_le_of_ne hle hopen)
  · obtain ⟨u, a, ha⟩ := exists_isAnswer s₀ (p := p) (d := d) hfed
    cases hexec.symm.trans (execute_carrying ha.exec p q)
    exact .executed ha

/-- A transaction whose transfers are all done is delivered. -/
theorem Underway.settle (h : Underway s₀ p d q s) :
    Underway s₀ p d q (s.settle p) ∨ Finished s₀ p d q (s.settle p) := by
  obtain ⟨⟨r, hr, hst, hsent⟩, hset⟩ | ⟨-, hset⟩ := settle_cases p s
  · rw [hset]
    cases h with
    | feeding _ => cases hr
    | executed ha =>
      cases ha.rsp.symm.trans hr
      exact .inr (.delivered ha hst hsent)
  · rw [hset]
    exact .inl h

/-- One more payload byte. -/
theorem Underway.payload (h : Underway s₀ p d q s) {b : Byte} (hopen : s.data.length < p.len.toNat) {v : State}
    (hv : State.runWhenFed p { s with data := s.data ++ [b] } = .next v) : Underway s₀ p (d ++ [b]) q v := by
  cases h with
  | feeding _ => exact underway_of_runWhenFed (by rw [List.length_append]; exact hopen) hv
  | executed ha =>
    rw [(Underway.executed (q := q) ha).data, ha.complete] at hopen
    exact absurd rfl hopen.ne

/-! ### What is handed over -/

/-- What the port shows is of the response to any completion of the payload. -/
theorem Underway.outputs (h : Underway s₀ p d q s) {more : List Byte} {u : State} {a : Response}
    (ha : IsAnswer s₀ p (d ++ more) u a) :
    s.rspStatus p = a.status ∧ s.rspLen p = a.rdata.length ∧
      (p.sent < (s.rdataSoFar p).length → p.sent < a.rdata.length ∧ s.doutData p = byteAt a.rdata p.sent) := by
  cases h with
  | feeding hopen =>
    have hexec := execute_carrying ha.exec p q
    obtain ⟨v, r, hv, hr, hst, hlen⟩ :=
      early_header_is_final (s := (s₀.load d).carrying p q) (p := p) (more := more) rfl ha.complete
    cases hexec.symm.trans hv
    cases ha.rsp.symm.trans hr
    refine ⟨hst, hlen, fun hk => ?_⟩
    obtain ⟨v, r, hv, hr, hlt, hbyte⟩ :=
      early_byte_is_final (s := (s₀.load d).carrying p q) (p := p) (more := more) rfl ha.complete hk
    cases hexec.symm.trans hv
    cases ha.rsp.symm.trans hr
    exact ⟨hlt, hbyte⟩
  | executed ha' =>
    have hmore : more = [] := by
      have hlen := ha.complete
      rw [List.length_append, ha'.complete] at hlen
      exact List.length_eq_zero_iff.1 (by omega)
    rw [hmore, List.append_nil] at ha
    obtain ⟨rfl, rfl⟩ := ha.unique ha'
    have hr : (u.carrying p q).rsp = some a := ha.rsp
    rw [State.doutData, rspStatus_of_some hr, rspLen_of_some hr, rdataSoFar_of_some hr]
    exact ⟨rfl, rfl, fun hk => ⟨hk, rfl⟩⟩

/-- How many entries of the response (`offersOf`) the host has. -/
def Transfer.offered (p : Transfer) : Nat := if p.statusSent then p.sent + 1 else 0

/-- Response bytes come after the response transfer. -/
def Transfer.InOrder (p : Transfer) : Prop := p.statusSent = false → p.sent = 0

theorem offer_of_payload {b : Byte} (hp : s.port = .busy p) (hq : s.inbox = .payloadTransfer b :: q) :
    s.offer = [] := by
  simp only [State.offer, hp, hq]

theorem offer_of_response (hp : s.port = .busy p) (hq : s.inbox = .responseTransfer :: q) :
    s.offer = [.header (s.rspStatus p) (s.rspLen p)] := by
  simp only [State.offer, hp, hq]

theorem offer_of_byte (hp : s.port = .busy p) (hq : s.inbox = .byteTransfer :: q) :
    s.offer = [.byte (s.doutData p)] := by
  simp only [State.offer, hp, hq]

theorem length_offersOf (a : Response) : (offersOf a).length = a.rdata.length + 1 := by
  rw [offersOf, List.length_cons, List.length_map]

theorem cons_drop_offersOf (a : Response) {n : Nat} (hn : n < a.rdata.length) :
    Offer.byte (byteAt a.rdata n) :: (offersOf a).drop (n + 2) = (offersOf a).drop (n + 1) := by
  rw [offersOf, List.drop_succ_cons, List.drop_succ_cons, byteAt_eq_getElem hn,
    List.drop_eq_getElem_cons (i := n) (by rwa [List.length_map]), List.getElem_map]

/-! ### One transfer -/

/-- A transfer `e` inside the transaction `p`, from `s` to `t`: the transaction goes on with its payload byte or is over, and
what is handed over is the next of the response to any completion of the payload. -/
structure Advances (s₀ : State) (p : Transfer) (d : List Byte) (e : HostEvent) (q : List HostEvent) (s t : State)
    (p' : Transfer) : Prop where
  inOrder : p'.InOrder
  state : Underway s₀ p' (d ++ e.payload) q t ∨ Finished s₀ p' (d ++ e.payload) q t
  offer : ∀ {more : List Byte} {u : State} {a : Response}, IsAnswer s₀ p (d ++ e.payload ++ more) u a →
    s.offer ++ (offersOf a).drop p'.offered = (offersOf a).drop p.offered

theorem Underway.advances_payload {b : Byte} (h : Underway s₀ p d (.payloadTransfer b :: q) s) (hord : p.InOrder)
    (ht : payloadTransfer b { s with inbox := q } = .next t) :
    Advances s₀ p d (.payloadTransfer b) q s t (p.withProgress p.statusSent p.sent) := by
  obtain ⟨p', v, hp, hopen, hv, rfl⟩ := payloadTransfer_next ht
  cases h.port.symm.trans hp
  exact {
    inOrder := hord
    state := ((h.withInbox q).payload hopen hv).settle
    offer := fun _ => by rw [offer_of_payload h.port h.inbox]; rfl }

theorem Underway.advances_response (h : Underway s₀ p d (.responseTransfer :: q) s) (hord : p.InOrder)
    (ht : responseTransfer { s with inbox := q } = .next t) :
    Advances s₀ p d .responseTransfer q s t (p.withProgress true p.sent) := by
  obtain ⟨p', hp, hst, rfl⟩ := responseTransfer_next ht
  cases h.port.symm.trans hp
  exact {
    inOrder := nofun
    state := by
      rw [HostEvent.payload, List.append_nil]
      exact ((h.withInbox q).progress true p.sent).settle
    offer := fun {more u a} ha => by
      rw [HostEvent.payload, List.append_nil] at ha
      obtain ⟨hstatus, hlen, -⟩ := h.outputs ha
      rw [offer_of_response h.port h.inbox, hstatus, hlen, Transfer.offered, Transfer.offered, hst, Transfer.withProgress,
        hord hst]
      rfl }

theorem Underway.advances_byte (h : Underway s₀ p d (.byteTransfer :: q) s)
    (ht : byteTransfer { s with inbox := q } = .next t) :
    Advances s₀ p d .byteTransfer q s t (p.withProgress p.statusSent (p.sent + 1)) := by
  obtain ⟨p', hp, hst, -, hknown, rfl⟩ := byteTransfer_next ht
  cases h.port.symm.trans hp
  rw [rdataSoFar_inbox] at hknown
  exact {
    inOrder := fun hb => absurd (hst.symm.trans hb) (by decide)
    state := by
      rw [HostEvent.payload, List.append_nil]
      exact ((h.withInbox q).progress p.statusSent (p.sent + 1)).settle
    offer := fun {more u a} ha => by
      rw [HostEvent.payload, List.append_nil] at ha
      obtain ⟨-, -, hbyte⟩ := h.outputs ha
      obtain ⟨hlt, hdata⟩ := hbyte hknown
      rw [offer_of_byte h.port h.inbox, hdata, Transfer.offered, Transfer.offered, Transfer.withProgress, hst]
      exact cons_drop_offersOf a hlt }

theorem Underway.advances {e : HostEvent} (h : Underway s₀ p d (e :: q) s) (hin : e.isInside = true) (hord : p.InOrder)
    (ht : step s = .next t) : ∃ b n, Advances s₀ p d e q s t (p.withProgress b n) := by
  rw [step_cons h.inbox] at ht
  cases e with
  | payloadTransfer b => exact ⟨_, _, h.advances_payload hord ht⟩
  | responseTransfer => exact ⟨_, _, h.advances_response hord ht⟩
  | byteTransfer => exact ⟨_, _, h.advances_byte ht⟩
  | command _ | requestTransfer _ _ _ | reset | secondRequester _ => cases hin

/-! ### The whole transaction -/

/-- An idle port refuses the transfers inside a transaction. -/
theorem step_ne_next_of_idle {e : HostEvent} (hp : s.port = .idle) (hq : s.inbox = e :: q) (hin : e.isInside = true)
    (t : State) : step s ≠ .next t := by
  rw [step_cons hq]
  cases e with
  | payloadTransfer b => simp [handle, payloadTransfer, hp]
  | responseTransfer => simp [handle, responseTransfer, hp]
  | byteTransfer => simp [handle, byteTransfer, hp]
  | command _ | requestTransfer _ _ _ | reset | secondRequester _ => cases hin

theorem Finished.port (h : Finished s₀ p d q s) : s.port = .idle := by
  cases h
  rfl

theorem Finished.inbox (h : Finished s₀ p d q s) : s.inbox = q := by
  cases h
  rfl

/-- After the last transfer of a transaction no further one inside it has a next state. -/
theorem Finished.runSteps_inside {es rest : List HostEvent} (h : Finished s₀ p d (es ++ rest) s)
    (hin : ∀ e ∈ es, e.isInside = true) (ht : runSteps es.length s = .next t) : es = [] ∧ t = s := by
  cases es with
  | nil => cases ht; exact ⟨rfl, rfl⟩
  | cons e es =>
    obtain ⟨u, hu, -⟩ := runSteps_succ_next ht
    exact absurd hu (step_ne_next_of_idle h.port h.inbox (hin e List.mem_cons_self) u)

/-- Any transfers inside a transaction that bring it to its end: the payload is complete, the end is the state that the
execution leaves, delivered, and what is handed over is what was left of the response. -/
theorem Underway.runSteps_inside {es rest : List HostEvent} (h : Underway s₀ p d (es ++ rest) s) (hord : p.InOrder)
    (hin : ∀ e ∈ es, e.isInside = true) (ht : runSteps es.length s = .next t) (hidle : t.port = .idle) :
    ∃ u a, IsAnswer s₀ p (d ++ es.flatMap HostEvent.payload) u a ∧ t = State.deliver { u with inbox := rest } ∧
      offersIn es.length s = (offersOf a).drop p.offered := by
  induction es generalizing p d s with
  | nil =>
    cases ht
    cases h.port.symm.trans hidle
  | cons e es ih =>
    obtain ⟨v, hstep, hrun⟩ := runSteps_succ_next ht
    obtain ⟨hine, hines⟩ := List.forall_mem_cons.1 hin
    obtain ⟨b, n, hadv⟩ := h.advances hine hord hstep
    rw [List.length_cons, offersIn_succ hstep, List.flatMap_cons, ← List.append_assoc]
    obtain hnext | hdone := hadv.state
    · obtain ⟨u, a, ha, hu, hoffers⟩ := ih hnext hadv.inOrder hines hrun
      rw [isAnswer_withProgress] at ha
      exact ⟨u, a, ha, hu, by rw [hoffers, hadv.offer ha]⟩
    · obtain ⟨rfl, rfl⟩ := hdone.runSteps_inside hines hrun
      cases hdone with
      | @delivered u a ha hst hsent =>
        rw [isAnswer_withProgress] at ha
        have hall : (p.withProgress b n).offered = (offersOf a).length := by
          rw [Transfer.offered, hst, length_offersOf, hsent]
          rfl
        have hoffer := hadv.offer (more := []) (by rwa [List.append_nil])
        rw [hall, List.drop_length] at hoffer
        exact ⟨u, a, by rwa [List.flatMap_nil, List.append_nil], rfl, hoffer⟩

end

/-- The transaction that a request transfer begins. -/
def Transfer.start (cmd imm : Word) (len : BitVec 40) : Transfer :=
  { cmd := cmd, imm := imm, len := len, statusSent := false, sent := 0 }

/-- The request transfer at an idle port hands nothing over. -/
theorem offer_of_idle {s : State} (hp : s.port = .idle) : s.offer = [] := by
  simp only [State.offer, hp]

theorem underway_of_requestTransfer {s t : State} {cmd imm : Word} {len : BitVec 40} {q : List HostEvent}
    (rest : List HostEvent) (h : step { s with inbox := .requestTransfer cmd imm len :: q } = .next t) :
    Underway { s with inbox := rest } (.start cmd imm len) [] q t := by
  rw [step_cons (s := { s with inbox := _ }) rfl] at h
  obtain ⟨-, hrun⟩ := requestTransfer_next h
  exact underway_of_runWhenFed (Nat.zero_le _) hrun

/-- Settles O59: the request transfer begins the transaction, `Underway.runSteps_inside` follows it to its end, and the
atomic step delivers the same execution. -/
theorem anyTransferOrderCarriesTheCommand : Obligations.AnyTransferOrderCarriesTheCommand := by
  unfold Obligations.AnyTransferOrderCarriesTheCommand
  intro s t cmd imm len es rest hp hin hrun hidle
  rw [Nat.add_comm] at hrun ⊢
  obtain ⟨v, hstep, hrun⟩ := runSteps_succ_next hrun
  have hbegun : Underway { s with inbox := rest } (.start cmd imm len) [] (es ++ rest) v :=
    underway_of_requestTransfer rest hstep
  obtain ⟨u, a, ha, rfl, hoffers⟩ := hbegun.runSteps_inside (fun _ => rfl) hin hrun hidle
  rw [List.nil_append] at ha
  obtain ⟨-, -, hkeep⟩ := execute_keeps ha.exec
  have hu : { u with inbox := rest } = u := by rw [← show u.inbox = rest from hkeep.inbox]
  have hlen : (es.flatMap HostEvent.payload).length < 2 ^ 40 := ha.complete.trans_lt len.isLt
  rw [hu]
  refine ⟨a, ha.complete, ?_, ?_, ?_⟩
  · exact step_of_execute (s := { s with inbox := _ }) hp rfl hlen ha.exec
  · rw [State.deliver_outbox, ha.rsp, hkeep.outbox]
    rfl
  · have hoffer := offer_of_idle (s := { s with inbox := .requestTransfer cmd imm len :: (es ++ rest) }) hp
    rw [offersIn_succ hstep, hoffer, hoffers]
    rfl

/-! ### The order of R255 -/

/-- The transfers of R255 after the request transfer: the payload, the response, and `n` response bytes. -/
def insideTransfers (r : Request) (n : Nat) : List HostEvent :=
  r.data.map .payloadTransfer ++ .responseTransfer :: List.replicate n .byteTransfer

theorem isInside_insideTransfers (r : Request) (n : Nat) : ∀ e ∈ insideTransfers r n, e.isInside = true := by
  intro e he
  simp only [insideTransfers, List.mem_append, List.mem_map, List.mem_cons, List.mem_replicate] at he
  obtain ⟨b, -, rfl⟩ | rfl | ⟨-, rfl⟩ := he <;> rfl

theorem payload_insideTransfers (r : Request) (n : Nat) : (insideTransfers r n).flatMap HostEvent.payload = r.data := by
  simp [insideTransfers, List.flatMap_map, HostEvent.payload]

theorem length_insideTransfers (r : Request) (n : Nat) : (insideTransfers r n).length = r.data.length + (1 + n) := by
  simp [insideTransfers, Nat.add_comm]

theorem Underway.exists_step_payload {s₀ s : State} {p : Transfer} {d : List Byte} {b : Byte} {q : List HostEvent}
    (h : Underway s₀ p d (.payloadTransfer b :: q) s) (hord : p.InOrder) (hst : p.statusSent = false)
    (hopen : d.length < p.len.toNat) : ∃ t, step s = .next t ∧ Underway s₀ p (d ++ [b]) q t := by
  have hallow : State.allows { s with inbox := q } (.payloadTransfer b) = true := by
    rw [allows_inbox, State.allows, dinReady_of_busy h.port, h.data]
    exact hopen
  obtain ⟨t, ht⟩ := handle_of_allows hallow
  refine ⟨t, (step_cons h.inbox).trans ht, ?_⟩
  obtain hnext | hdone := (h.advances_payload hord ht).state
  · exact hnext
  · cases hdone with
    | delivered _ hsent => exact absurd (hst.symm.trans hsent) Bool.false_ne_true

/-- The payload, byte by byte, before the response transfer. -/
theorem Underway.runSteps_payload {s₀ s : State} {p : Transfer} {d ds : List Byte} {q : List HostEvent}
    (h : Underway s₀ p d (ds.map .payloadTransfer ++ q) s) (hord : p.InOrder) (hst : p.statusSent = false)
    (hle : (d ++ ds).length ≤ p.len.toNat) :
    ∃ t, runSteps ds.length s = .next t ∧ Underway s₀ p (d ++ ds) q t := by
  induction ds generalizing d s with
  | nil => exact ⟨s, rfl, by rwa [List.append_nil]⟩
  | cons b ds ih =>
    have hopen : d.length < p.len.toNat := by
      rw [List.length_append, List.length_cons] at hle
      omega
    obtain ⟨v, hstep, hv⟩ := h.exists_step_payload hord hst hopen
    rw [List.append_cons] at hle ⊢
    obtain ⟨t, ht, hfed⟩ := ih hv hle
    exact ⟨t, (runSteps_succ hstep).trans ht, hfed⟩

/-- The response bytes, once the command has been executed and the response transferred. -/
theorem runSteps_bytes {s : State} {p : Transfer} {a : Response} {k : Nat} {q : List HostEvent}
    (hp : s.port = .busy p) (hr : s.rsp = some a) (hst : p.statusSent = true) (hk : p.sent + k = a.rdata.length)
    (hq : s.inbox = List.replicate k .byteTransfer ++ q) :
    ∃ t, runSteps k (s.settle p) = .next t ∧ t.port = .idle := by
  induction k generalizing s p with
  | zero =>
    obtain ⟨-, hset⟩ | ⟨hopen, -⟩ := settle_cases p s
    · exact ⟨_, rfl, by rw [hset, State.deliver_port]⟩
    · exact absurd ⟨hst, hk⟩ (hopen a hr)
  | succ k ih =>
    have hset : s.settle p = s := by
      obtain ⟨⟨b, hb, -, hsent⟩, -⟩ | ⟨-, hset⟩ := settle_cases p s
      · cases hr.symm.trans hb
        omega
      · exact hset
    have hlt : p.sent < a.rdata.length := by omega
    have hstep := byteTransfer_of (s := { s with inbox := List.replicate k .byteTransfer ++ q }) hp hst
      (by rwa [rspLen_inbox, rspLen_of_some hr]) (by rwa [rdataSoFar_inbox, rdataSoFar_of_some hr])
    obtain ⟨t, ht, hidle⟩ := ih (s := { s with
      inbox := List.replicate k .byteTransfer ++ q, port := .busy { p with sent := p.sent + 1 } })
      (p := { p with sent := p.sent + 1 }) rfl hr hst (by simp only; omega) rfl
    rw [hset]
    refine ⟨t, (runSteps_succ ?_).trans ht, hidle⟩
    rw [step_cons hq, handle]
    exact hstep

theorem Underway.rsp_of_complete {s₀ s : State} {p : Transfer} {d : List Byte} {q : List HostEvent}
    (h : Underway s₀ p d q s) (hfed : d.length = p.len.toNat) :
    ∃ a, s.rsp = some a ∧ a.rdata.length = requestRspLen p.cmd p.imm d.length s₀ := by
  cases h with
  | feeding hopen => exact absurd hfed hopen.ne
  | executed ha =>
    obtain ⟨v, b, hv, hb, -, hlen⟩ := execute_response p.cmd p.imm (s₀.load d)
    cases ha.exec.symm.trans hv
    exact ⟨b, hb, hlen.trans (requestRspLen_congr _ _ _ rfl rfl)⟩

/-- Once the payload is complete, the response transfer and the response bytes end the transaction. -/
theorem Underway.runSteps_response {s₀ s : State} {p : Transfer} {d : List Byte} {k : Nat} {q : List HostEvent}
    (h : Underway s₀ p d (.responseTransfer :: (List.replicate k .byteTransfer ++ q)) s) (hord : p.InOrder)
    (hst : p.statusSent = false) (hfed : d.length = p.len.toNat)
    (hk : requestRspLen p.cmd p.imm d.length s₀ = k) : ∃ t, runSteps (1 + k) s = .next t ∧ t.port = .idle := by
  obtain ⟨a, ha, halen⟩ := h.rsp_of_complete hfed
  have hstep := responseTransfer_of (s := { s with inbox := List.replicate k .byteTransfer ++ q }) h.port hst
  have hleft : p.sent + k = a.rdata.length := by rw [hord hst, halen, hk, Nat.zero_add]
  obtain ⟨t, ht, hidle⟩ := runSteps_bytes (p := p.withProgress true p.sent)
    (s := { s with inbox := List.replicate k .byteTransfer ++ q, port := .busy (p.withProgress true p.sent) })
    rfl ha rfl hleft rfl
  rw [Nat.add_comm]
  exact ⟨t, (runSteps_succ ((step_cons h.inbox).trans hstep)).trans ht, hidle⟩

/-- The transfers of R255 in their order all have next states and end the transaction. -/
theorem exists_run_transfersOf {s : State} {r : Request} {k : Nat} (rest : List HostEvent) (hp : s.port = .idle)
    (hlen : r.data.length < 2 ^ 40) (hk : requestRspLen r.cmd r.imm r.data.length s = k) :
    ∃ t, runSteps (1 + (insideTransfers r k).length) { s with inbox := transfersOf r k ++ rest } = .next t ∧
      t.port = .idle := by
  have hfit : r.data.length = (BitVec.ofNat 40 r.data.length).toNat := by
    rw [BitVec.toNat_ofNat, Nat.mod_eq_of_lt hlen]
  obtain ⟨v, hv⟩ := handle_of_allows (s := { s with inbox := insideTransfers r k ++ rest })
    (e := .requestTransfer r.cmd r.imm (.ofNat 40 r.data.length)) (reqReady_iff.2 hp)
  have hstep : step { s with inbox := transfersOf r k ++ rest } = .next v := hv
  have hbegun : Underway { s with inbox := rest } (.start r.cmd r.imm (.ofNat 40 r.data.length)) []
      (insideTransfers r k ++ rest) v := underway_of_requestTransfer rest hstep
  rw [insideTransfers, List.append_assoc] at hbegun
  obtain ⟨w, hw, hfed⟩ := hbegun.runSteps_payload (fun _ => rfl) rfl hfit.le
  have hrspLen : requestRspLen r.cmd r.imm r.data.length { s with inbox := rest } = k :=
    hk ▸ requestRspLen_congr _ _ _ rfl rfl
  obtain ⟨t, ht, hidle⟩ := hfed.runSteps_response (fun _ => rfl) rfl hfit hrspLen
  refine ⟨t, ?_, hidle⟩
  rw [length_insideTransfers, Nat.add_comm, runSteps_succ hstep, runSteps_add hw, ht]

/-- Settles O58: the transfers of R255 all have next states, so it is one of the orders of O59. -/
theorem portTransfersCarryTheCommand : Obligations.PortTransfersCarryTheCommand := by
  unfold Obligations.PortTransfersCarryTheCommand
  intro s r rest hp hlen
  obtain ⟨t, ht, hidle⟩ := exists_run_transfersOf rest hp hlen rfl
  obtain ⟨a, -, hstep, hout, hoffers⟩ := anyTransferOrderCarriesTheCommand s t r.cmd r.imm _ _ rest hp
    (isInside_insideTransfers r _) ht hidle
  rw [payload_insideTransfers] at hstep
  have hcount : 2 + r.data.length + requestRspLen r.cmd r.imm r.data.length s =
      1 + (insideTransfers r (requestRspLen r.cmd r.imm r.data.length s)).length := by
    rw [length_insideTransfers]
    omega
  rw [hcount]
  exact ⟨t, a, hstep, hout, ht, hoffers⟩

end Sys2Proof.Machine
end
